-- ==== Sys2Proof/Word.lean ====
section
/-! DEFINITION. The words of the array line and of the configuration image: the byte. -/

namespace Sys2Proof

/-- One character's eight data bits, or one byte of the configuration memory. -/
abbrev Byte := BitVec 8

/-- Four like things: the zones 1 to 4, the keys 1 to 4. -/
structure Four (α : Type) where
  z1 : α
  z2 : α
  z3 : α
  z4 : α
  deriving DecidableEq, Repr

end Sys2Proof
end

