-- ==== Sys2Proof/Syntax.lean ====
section
/-! DEFINITION. The commands the station takes: one constructor of Instr for each row of spec/opcode_table.json, with what the rules say the row's event carries. -/

namespace Sys2Proof

/-- The two drive axes (chapter 1). -/
inductive Axis where
  | az
  | el
  deriving DecidableEq, Repr

/-- The two feedback inputs of the stow pin (R48). -/
inductive PinInput where
  | engaged
  | retracted
  deriving DecidableEq, Repr

/-- The five sensors of the temperature sensor line (chapter 5.3). -/
inductive Sensor where
  | zone (z : Fin 4)
  | ambient
  deriving DecidableEq, Repr

/-- An order as the receiver read it (R161): the frame's origin, and the payload of 12.3 but for the order kind, which the
command's constructor names. `args` are the payload bytes from offset 4 on, as many as came. -/
structure Order where
  console : Byte
  tag : Byte
  scope : Byte
  number : Byte
  args : List Byte
  deriving DecidableEq, Repr

/-- What one encoder gave at a read (R16): no answer, an answer whose check fails, or an angle, converted to µdeg and
without the configured offset. -/
inductive EncoderAnswer where
  | silent
  | badCheck
  | angle (udeg : Int)
  deriving DecidableEq, Repr

/-- The field lines of one axis at a control-interval sample (11.4). -/
structure AxisSample where
  encoder : EncoderAnswer
  brakeReleased : Bool
  lowLimit : Bool
  highLimit : Bool
  enableReadback : Bool
  deriving DecidableEq, Repr

/-- Every field line that a control interval samples (11.4). `stuck` names the feedback comparisons whose comparing
element has failed so that it reports agreement whatever it is given (chapter 10.5): bit 0 brake AZ, 1 brake EL,
2 pin-engaged, 3 pin-retracted, 4 enable AZ, 5 enable EL, 6 to 9 zones 1 to 4. -/
structure Samples where
  az : AxisSample
  el : AxisSample
  ampFault : Bool
  pinEngaged : Bool
  pinRetracted : Bool
  zoneClosed : Four Bool
  wet : Bool
  keyHigh : Four Bool
  stuck : BitVec 10
  deriving DecidableEq, Repr

/-- A frame as the receiver read it off the line, before the checks of R112. -/
structure RawFrame where
  first : Byte
  second : Byte
  length : Byte
  payload : List Byte
  checkHigh : Byte
  checkLow : Byte
  /-- every stop level read recessive -/
  stopsGood : Bool
  /-- every character followed the one before without recessive time until the frame was complete -/
  unbroken : Bool
  deriving DecidableEq, Repr

/-- What the five sensors answered in one poll round (R89): a value in 0.1 °C, or none where a sensor did not answer or
its check failed. -/
structure PollAnswers where
  zone : Four (Option Int)
  ambient : Option Int
  deriving DecidableEq, Repr

/-- Which writes of the two items that the retained store holds beside its records a reset found unfinished (R78). -/
structure ItemCuts where
  /-- the write of the last change of the heat mode -/
  heat : Bool
  /-- the write of the last change of the CONSOLE presence -/
  console : Bool
  deriving DecidableEq, Repr

/-- The commands of the station: the rows of spec/opcode_table.json, in the table's order. -/
inductive Instr where
  | point (o : Order)
  | hold (o : Order)
  | brake (o : Order)
  | stow (o : Order)
  | unstow (o : Order)
  | quiet (o : Order)
  | wake (o : Order)
  | lock (o : Order)
  | unlock (o : Order)
  | release (o : Order)
  | heat (o : Order)
  | clear (o : Order)
  | prove (o : Order)
  /-- `origin` is the frame's origin, `payload` its payload characters (12.2). -/
  | peerBeacon (origin : Byte) (payload : List Byte)
  | ownNumberBeacon
  /-- `f` is a frame as the receiver read it off the line. One that fails a check of R112 is discarded; the meaning takes
  one that passes them all as R114 takes it, so that this row is the receiver's whole reading (log 22). -/
  | discardedFrame (f : RawFrame)
  | stray
  /-- `gap` is the recessive run in bit times that the transmitter has counted (R105). -/
  | transmissionStart (gap : Nat)
  /-- `word` is the 15-bit arbitration word of the node that won (R104, R108). -/
  | lostArbitration (word : BitVec 15)
  | abort
  | breakEnd
  | restTimerExpiry
  | beaconComplete
  | duplicateTimerExpiry
  | isolationTimerExpiry
  | beaconIntervalDue
  | noiseDecay
  /-- `station` is the number of the peer whose record has aged. -/
  | peerStale (station : Nat)
  | peerExpiry (station : Nat)
  | controlInterval (samples : Samples)
  | onSourceSet
  | followTimeout (axis : Axis)
  | brakeReleasedFeedback (axis : Axis)
  | brakeEngagedFeedback (axis : Axis)
  | brakeTimeout (axis : Axis)
  | brakeMismatch (axis : Axis)
  | idleBrakeExpiry (axis : Axis)
  | encoderRecovered (axis : Axis)
  /-- `upper`: the upper switch of the axis, otherwise the lower one. -/
  | limitSwitch (axis : Axis) (upper : Bool)
  | ampFaultInput
  | pinInputTaken (input : PinInput)
  | pinTimeout
  | releaseHoldExpiry
  | wakeSettleEnd
  | anemometerPulse
  /-- `lost` is how many of the synthetic transitions of the bin the input stage failed to count (R44); without a
  running wind proof it plays no part. The four rows below are bin ends at which more falls (R33). -/
  | binEnd (lost : Nat)
  | gustValid (lost : Nat)
  | blockEnd (lost : Nat)
  | stallExpiry (lost : Nat)
  | windProofVerdict (lost : Nat)
  | graceExpiry
  | settleIntervalEnd
  | fillTimeEnd
  | stowWaitLimit
  | keyTaken (key : Fin 4)
  | recordWriteEnd
  | pollRound (answers : PollAnswers)
  | sensorFault (sensor : Sensor)
  | wetChange
  | wetMemoryExpiry
  | cycleStart (zone : Fin 4)
  | onTimeEnd (zone : Fin 4)
  | zoneFeedbackTimeout (zone : Fin 4)
  | feedbackProofVerdict
  /-- `ms`: how long the RESET input has been asserted. `cuts`: which item writes the reset found unfinished (R78).
  `cutEmptying`: it found the emptying of the retained store at a power-on unfinished (R78, R183). -/
  | resetAsserted (ms : Nat) (cuts : ItemCuts) (cutEmptying : Bool)
  /-- `ms`: how long the supply stays below its working range. `lost`: a failure that lasted longer than the hold-up
  time, but so little that it may end either way, has lost the retained store (R183). -/
  | supplyFailure (ms : Nat) (lost : Bool) (cuts : ItemCuts) (cutEmptying : Bool)
  | startInstant
  /-- `bytes`: the bytes of the section that the memory acknowledged, from its first byte on (R180). -/
  | sectionLoaded (bytes : List Byte)
  | configurationComplete
  /-- An order frame's origin and whole payload: its order kind is a code that 12.3 does not define, or the payload ends
  before it (R164). -/
  | undefinedOrderKind (console : Byte) (payload : List Byte)
  deriving DecidableEq, Repr

end Sys2Proof
end

