-- ==== Sys2Proof/Decode.lean ====
section
/-! DEFINITION. The host's reading of a word as a command: the table gives no row a bit, so no word spells a command (log 24). -/

namespace Sys2Proof

/-- The command that a word spells by the bits of spec/opcode_table.json: none, since its rows give no bits. -/
def decodeTableWord (_nbits _w : Nat) : Option Instr := none

end Sys2Proof
end

