-- ==== Sys2Proof/Config.lean ====
section
/-! DEFINITION. What the configuration image fixes for a run: the parameters of its four sections (chapter 11.1), in the units of their chapters' tables. And the one value that the spec leaves free. -/

namespace Sys2Proof

/-- The kinds of a lockout (R69). -/
inductive LockKind where
  | point
  | drive
  | heat
  | area
  | all
  deriving DecidableEq, Repr

/-- The sense of a key input (chapter 4.2). -/
inductive KeySense where
  | disabled
  | activeHigh
  | activeLow
  deriving DecidableEq, Repr

/-- The configured kind and sense of one key (section A). -/
structure KeyConfig where
  kind : LockKind
  sense : KeySense
  deriving DecidableEq, Repr

/-- The bit rates of the line, in kbit/s (section A). -/
inductive BitRate where
  | k125
  | k250
  | k500
  deriving DecidableEq, Repr

/-- The four sections of the configuration image. -/
inductive SectionId where
  | a
  | b
  | c
  | d
  deriving DecidableEq, Repr

/-- Section A, identity (chapter 11.1). -/
structure SecA where
  station : Nat
  feeder : Nat
  subarray : Nat
  neighbours : List Nat
  windList : List Nat
  keys : Four KeyConfig
  bitRate : BitRate
  exponent : Nat
  deriving DecidableEq, Repr

/-- The parameters of one axis (chapter 1.1), in mdeg, mdeg/s, mdeg/s² and tenths per second. -/
structure AxisParams where
  vmax : Nat
  amax : Nat
  derVmax : Nat
  derAmax : Nat
  kp : Nat
  vcmdMax : Nat
  follow : Nat
  jump : Nat
  offset : Int
  deriving DecidableEq, Repr

/-- Section B, axes (chapters 1.1 and 3.1). -/
structure SecB where
  azMin : Int
  azMax : Int
  elMin : Int
  az : AxisParams
  el : AxisParams
  window : Nat
  trackBand : Nat
  creep : Nat
  clearance : Int
  idleBrake : Nat
  pinLimit : Nat
  wakeSettle : Nat
  deriving DecidableEq, Repr

/-- Section C, wind and power (chapters 2.1, 3.1, 6.5 and 8.1). -/
structure SecC where
  k : Nat
  voff : Nat
  watchGust : Nat
  stowGust : Nat
  stowMean : Nat
  releaseGust : Nat
  releaseMean : Nat
  derate : Nat
  quorum : Nat
  releaseHold : Nat
  stallTime : Nat
  stallRef : Nat
  budget : Nat
  reserve : Nat
  stale : Nat
  accAz : Nat
  accEl : Nat
  derAccAz : Nat
  derAccEl : Nat
  cruiseAz : Nat
  cruiseEl : Nat
  holdLoad : Nat
  settle : Nat
  stowWait : Nat
  isolation : Nat
  deriving DecidableEq, Repr

/-- Section D, heat and conditions (chapters 5.1 and 10.1). `masks` has bit i set where the i-th condition of the
catalogue (10.2, from 0) is masked; `alarm` is the alarm class mask in the class set's bits (12.4). -/
structure SecD where
  power : Four Nat
  gain : Nat
  melt : Int
  antiIce : Int
  frost : Int
  wetMemory : Nat
  cycle : Nat
  masks : BitVec 36
  alarm : BitVec 6
  deriving DecidableEq, Repr

/-- A FREE VALUE: by how many ms a supply failure may exceed the hold-up time and still count as close to it, so that it
may end either way (R183 gives no number; log 12). -/
opaque Config.holdUpSpread : Nat

end Sys2Proof
end

