-- ==== Sys2Proof/Machine/Blocks.lean ====
section
/-! DEFINITION. The records that the station's blocks hold, as their chapters name them. -/

namespace Sys2Proof.Machine

/-! ## Axis controller (chapter 1) -/

/-- Axis states (R1). -/
inductive AxisState where
  | braked
  | unbraking
  | active
  | stopping
  | fault
  deriving DecidableEq, Repr

/-- Axis targets (R1); positions in µdeg, the track rate in mdeg/s, the epoch in ms since the start instant. -/
inductive Target where
  | none
  | hold (p : Int)
  | slew (p : Int)
  | track (p0 : Int) (rate : Int) (epoch : Nat)
  deriving DecidableEq, Repr

/-- Motion phases (R13). -/
inductive Phase where
  | rest
  | track
  | accel
  | cruise
  deriving DecidableEq, Repr

/-- One axis record (R1), with what R4, R9, R14 and R16 add to it. -/
structure AxisRec where
  state : AxisState
  /-- the engaging part of STOPPING (R4) -/
  engaging : Bool
  target : Target
  x : Int
  v : Int
  carry : Int
  lastDemand : Int
  /-- the encoder reading, or none while it is unread (R185) -/
  reading : Option Int
  /-- the preceding answered read (R16) -/
  answered : Option Int
  phase : Phase
  load : Nat
  releasePending : Bool
  followTimer : Nat
  brakeTimer : Option Nat
  /-- a counted sample of the brake feedback has come since the brake timer started (R3, R4, R178) -/
  brakeSeen : Bool
  idleTimer : Option Nat
  mismatchTimer : Nat
  recovery : Nat
  encoderFault : Bool
  /-- the next interval is the first after UNBRAKING, for which dp is x (R9) -/
  fresh : Bool
  duty : Int
  deriving DecidableEq, Repr

/-- The axis controller: two axis records and two station-wide items (R1). -/
structure Axes where
  az : AxisRec
  el : AxisRec
  derating : Bool
  onSource : Bool
  onSourceTimer : Nat
  deriving DecidableEq, Repr

/-! ## Wind watch (chapter 2) -/

/-- Local votes (R28). -/
inductive Vote where
  | none
  | calm
  | watch
  | stow
  deriving DecidableEq, Repr

/-- The record of a running wind proof (R28, R43). -/
structure WindProof where
  /-- the bin in progress is the one of acceptance -/
  accepting : Bool
  /-- what the live counter held at the switch -/
  atSwitch : Nat
  ring : List Nat
  vote : Vote
  synthetic : Nat
  bins : Nat
  deriving DecidableEq, Repr

/-- The wind watch record (R28). -/
structure Wind where
  live : Nat
  standby : Nat
  ring : List Nat
  blockSum : Nat
  blockBins : Nat
  blocks : List Nat
  gust : Nat
  gustValid : Bool
  mean : Nat
  meanValid : Bool
  vote : Vote
  stall : Nat
  /-- ms the grace has run, or none once it has ended -/
  grace : Option Nat
  usable : Bool
  outLocal : Bool
  outPeers : Bool
  outBlind : Bool
  effective : Option Nat
  proof : Option WindProof
  /-- ms of the bin in progress, or none before the first bin -/
  binClock : Option Nat
  deriving DecidableEq, Repr

/-! ## Stow unit (chapter 3) -/

/-- Stow states (R47). -/
inductive StowState where
  | clear
  | demanded
  | moving
  | pinning
  | stowed
  | releasing
  | blocked
  | failed
  deriving DecidableEq, Repr

/-- The stow cause set (R47). -/
structure Causes where
  windLocal : Bool
  windPeers : Bool
  blind : Bool
  isolation : Bool
  console : Bool
  deriving DecidableEq, Repr

/-- Commands of the pin actuator (3.1). -/
inductive PinCommand where
  | off
  | drivenOut
  | drivenIn
  deriving DecidableEq, Repr

/-- Park states (R47). -/
inductive Park where
  | run
  | parked
  | waking
  deriving DecidableEq, Repr

/-- The stow unit (R47). A timer is none while it is stopped, otherwise the ms it has run. -/
structure StowUnit where
  state : StowState
  causes : Causes
  holdTimer : Option Nat
  pinTimer : Option Nat
  pin : PinCommand
  park : Park
  settleTimer : Option Nat
  pendingRelease : Bool
  deriving DecidableEq, Repr

/-! ## Field inputs -/

/-- A filtered input: whether a sample has counted since the start, the level at the last counted sample, the ms that
it has held by then, and the level last taken. -/
structure Filter where
  sampled : Bool
  level : Bool
  held : Nat
  taken : Option Bool
  deriving DecidableEq, Repr

/-- The field inputs as the station last sampled them (11.4). -/
structure Inputs where
  azLow : Bool
  azHigh : Bool
  elLow : Bool
  elHigh : Bool
  ampFault : Bool
  azReleased : Bool
  elReleased : Bool
  zoneClosed : Four Bool
  pinEngaged : Filter
  pinRetracted : Filter
  keys : Four Filter
  /-- the precipitation input; what is taken of it is the heater unit's `wet` (R91) -/
  wetLevel : Bool
  wetHeld : Nat
  deriving DecidableEq, Repr

/-! ## Lockout list and retained store (chapter 4) -/

/-- Who placed a lockout (R69); a console carries its number. -/
inductive Origin where
  | key (n : Fin 4)
  | system
  | console (n : Nat)
  deriving DecidableEq, Repr

/-- A lockout record (R69). `sub` is the ms into the present second of its age. -/
structure Lock where
  kind : LockKind
  origin : Origin
  age : Nat
  sub : Nat
  uncertain : Bool
  deriving DecidableEq, Repr

/-- What a record write concerns (R79). -/
inductive Ident where
  | key (n : Fin 4)
  | system
  | console (k : LockKind) (n : Nat)
  deriving DecidableEq, Repr

/-- An open mark (R79). -/
structure Mark where
  kind : LockKind
  origin : Origin
  deriving DecidableEq, Repr

/-- Heat modes (R87). -/
inductive HeatMode where
  | auto
  | off
  | force
  deriving DecidableEq, Repr

/-- The retained store (R78) and the writes to it (R79, R80). `heatOld` and `consoleOld` are what the last writes of
those two items were to replace. -/
structure Store where
  valid : Bool
  /-- the emptying of a power-on may not have ended, so that a reset can find it unfinished (R78; log 33) -/
  emptying : Bool
  records : List Lock
  marks : List Mark
  heat : HeatMode
  heatOld : Option HeatMode
  console : Bool
  consoleOld : Option Bool
  queue : List Ident
  /-- the identity being written and the ms its write has taken -/
  writing : Option (Ident × Nat)
  deriving DecidableEq, Repr

/-! ## Heater unit (chapter 5) -/

/-- Zone targets (R87). -/
inductive ZoneTarget where
  | none
  | antiIce
  | melt
  deriving DecidableEq, Repr

/-- One heater zone (R87). -/
structure Zone where
  reading : Option Int
  fails : Nat
  demand : Nat
  power : Nat
  output : Nat
  cycle : Nat
  /-- ms since the present cycle started; a cycle start that is yet to be taken leaves it beyond the period (R97) -/
  phase : Nat
  /-- ms to the first cycle start, or none once the cycles run (or before section D) -/
  untilFirst : Option Nat
  on : Bool
  mismatch : Nat
  deriving DecidableEq, Repr

/-- The heater unit (R87). -/
structure Heater where
  mode : HeatMode
  wet : Bool
  memory : Option Nat
  ambient : Option Int
  ambientFails : Nat
  zones : Four Zone
  target : ZoneTarget
  demand : Nat
  scale : Nat
  allowance : Nat
  load : Nat
  deriving DecidableEq, Repr

/-! ## Feeder account (chapter 8) -/

/-- Claim kinds and claim states (R139). -/
inductive ClaimKind where
  | none
  | slew
  | stow
  deriving DecidableEq, Repr

inductive ClaimState where
  | none
  | waiting
  | active
  deriving DecidableEq, Repr

/-- The claim (R139). -/
structure Claim where
  kind : ClaimKind
  state : ClaimState
  accAz : Bool
  accEl : Bool
  amount : Nat
  need : Nat
  waitAge : Nat
  /-- ms into the present 100 ms period of the wait age -/
  waitSub : Nat
  /-- the moment of the first completed beacon carrying it as WAITING (R150) -/
  announced : Option Nat
  /-- the settle interval's passing has been taken (R151) -/
  settled : Bool
  /-- the wait age announced by the last completed beacon that carried the present claim (R149) -/
  announcedAge : Nat
  degraded : Bool
  forced : Bool
  deriving DecidableEq, Repr

/-- The feeder account (R139). -/
structure Feeder where
  claim : Claim
  loadAz : Nat
  loadEl : Nat
  accelAz : Bool
  accelEl : Bool
  effective : Nat
  drive : Nat
  raw : Int
  headroom : Nat
  ahead : Nat
  pool : Nat
  ownDemand : Nat
  allowance : Nat
  /-- ms the fill time has run, or none once it has ended -/
  fill : Option Nat
  deriving DecidableEq, Repr

/-! ## Peer table (chapter 7) -/

/-- A peer record (R123). `sub` is the ms into the present 100 ms period of its age. -/
structure Peer where
  station : Nat
  relFeeder : Bool
  relNeighbour : Bool
  relWind : Bool
  exponent : Nat
  feeder : Nat
  budget : Nat
  load : Nat
  claimKind : ClaimKind
  claimState : ClaimState
  need : Nat
  waitAge : Nat
  demand : Nat
  gust : Nat
  vote : Vote
  kinds : BitVec 5
  age : Nat
  sub : Nat
  isFresh : Bool
  deriving DecidableEq, Repr

/-! ## Line port (chapter 6) -/

/-- Transmitter states (R106). -/
inductive Transmitter where
  | idle
  | gap
  | arbitrating
  | sending
  | aborting
  | resting
  | silent
  deriving DecidableEq, Repr

/-- Priorities of this station's beacons (R104). -/
inductive Priority where
  | urgent
  | normal
  deriving DecidableEq, Repr

/-- Why the transmitter is SILENT (R106). -/
inductive Silence where
  | none
  | duplicate
  | identity
  deriving DecidableEq, Repr

/-- The frame in flight (R106), with what R109 hands the feeder account at its completion. -/
structure Frame where
  payload : List Byte
  priority : Priority
  crc : BitVec 16
  /-- the class notices it carries and has yet to serve (R120) -/
  notices : BitVec 6
  claimState : ClaimState
  waitAge : Nat
  assembled : Nat
  /-- it was assembled while the present claim was WAITING (R149, R150) -/
  present : Bool
  deriving DecidableEq, Repr

/-- The line port (R106). -/
structure LinePort where
  tx : Transmitter
  pending : Option Priority
  frame : Option Frame
  aborts : Nat
  holdOff : Option Nat
  abortedCrc : BitVec 16
  restTimer : Option Nat
  silence : Silence
  duplicateTimer : Option Nat
  beaconTimer : Option Nat
  /-- the interval in force has been reached and its request made, in this run of the beacon timer (R118) -/
  dueTaken : Bool
  noise : Nat
  noiseClock : Nat
  isolationTimer : Option Nat
  deriving DecidableEq, Repr

/-! ## Orders (chapter 9) -/

/-- Result codes (9.4). -/
inductive Code where
  | none
  | done
  | clamped
  | locked
  | stowing
  | fault
  | busy
  | owner
  | full
  | holding
  | cause
  | argument
  | state
  deriving DecidableEq, Repr

/-- The result slot (R167); console 0 is none (12.2). -/
structure ResultSlot where
  tag : Byte
  console : Byte
  code : Code
  deriving DecidableEq, Repr

/-! ## Condition unit (chapter 10) -/

/-- The six classes (R169). -/
inductive Cls where
  | wind
  | line
  | drive
  | heat
  | power
  | config
  deriving DecidableEq, Repr

/-- The 36 conditions (10.2). -/
inductive Cond where
  | anemoStall
  | anemoProof
  | isolated
  | lineNoise
  | txFault
  | duplicate
  | tableFull
  | budgetMismatch
  | limit (a : Axis)
  | follow (a : Axis)
  | encoder (a : Axis)
  | brake (a : Axis)
  | ampFault
  | pinFeedback
  | stowFailed
  | azRange
  | zoneSensor (z : Fin 4)
  | zoneFeedback (z : Fin 4)
  | ambientSensor
  | overload
  | stowForced
  | sectionFailed (x : SectionId)
  | proofFeedback
  deriving DecidableEq, Repr

/-- Condition states (R169). -/
inductive CondState where
  | clear
  | active
  | latched
  deriving DecidableEq, Repr

/-- The record of a running feedback proof (R177); one bit for each of the ten comparisons, numbered as in `Samples`. -/
structure FeedbackProof where
  /-- the number of the next sample, 0 to 20 -/
  sample : Nat
  proven : BitVec 10
  failed : BitVec 10
  evenAgreed : BitVec 10
  evenCommand : BitVec 10
  deriving DecidableEq, Repr

/-- The condition unit (R169). -/
structure CondUnit where
  states : Vector CondState 36
  masks : BitVec 36
  notices : BitVec 6
  summary : BitVec 6
  alarmMask : BitVec 6
  /-- section D has been installed or found failed (R173) -/
  settled : Bool
  proof : Option FeedbackProof
  deriving DecidableEq, Repr

/-! ## Configuration loader (chapter 11) -/

/-- What has become of a section at this start (R180). -/
inductive SecStatus where
  | unread
  | installed
  | failed
  deriving DecidableEq, Repr

/-- The parameters in force and how far the start sequence has got (R180, R184, R185). -/
structure Setup where
  secA : Option SecA
  secB : SecB
  secC : SecC
  secD : SecD
  statusA : SecStatus
  statusB : SecStatus
  statusC : SecStatus
  statusD : SecStatus
  /-- the section the loader reads next, or none when it has read all four -/
  loading : Option SectionId
  encodersRead : Bool
  configured : Bool
  deriving DecidableEq, Repr

/-! ## Outputs (11.4) -/

/-- The station's outputs. -/
structure Outputs where
  azDuty : Int
  elDuty : Int
  azEnable : Bool
  elEnable : Bool
  azBrake : Bool
  elBrake : Bool
  pin : PinCommand
  zones : Four Bool
  alarm : Bool
  stowed : Bool
  encoderPower : Bool
  lineDriven : Bool
  synthetic : Bool
  deriving DecidableEq, Repr

/-! ## The whole -/

/-- What the axis controller, stow unit, heater unit, line port, feeder account and condition unit read but do not
change: the settings, the time, the peer table, the lockout list, the wind watch and the sampled inputs. -/
structure Env where
  setup : Setup
  now : Nat
  peers : List Peer
  list : List Lock
  wind : Wind
  inputs : Inputs
  deriving DecidableEq, Repr

/-- The blocks that act on one another inside a step. -/
structure Core where
  axes : Axes
  stow : StowUnit
  heat : Heater
  line : LinePort
  fee : Feeder
  cond : CondUnit
  deriving DecidableEq, Repr

end Sys2Proof.Machine
end

