-- ==== Sys2Proof/Machine/Params.lean ====
section
/-! DEFINITION. The defaults of the parameter tables and the fixed times and limits of the rules. -/

namespace Sys2Proof.Machine

/-- Defaults of one axis (1.1). -/
def defaultAxis : AxisParams :=
  { vmax := 2000, amax := 1000, derVmax := 1000, derAmax := 500, kp := 50, vcmdMax := 4000, follow := 500, jump := 200,
    offset := 0 }

/-- Defaults of section B (1.1 and 3.1), which a failed section B leaves in force (R182). -/
def defaultB : SecB :=
  { azMin := -270000, azMax := 270000, elMin := 5000, az := defaultAxis, el := defaultAxis, window := 10,
    trackBand := 100, creep := 200, clearance := 30000, idleBrake := 120, pinLimit := 20, wakeSettle := 3000 }

/-- Defaults of section C (2.1, 3.1, 6.5 and 8.1); a failed section C leaves those of the wind watch, the release hold
and the isolation timer in force (R182). -/
def defaultC : SecC :=
  { k := 250, voff := 0, watchGust := 150, stowGust := 200, stowMean := 150, releaseGust := 120, releaseMean := 100,
    derate := 120, quorum := 2, releaseHold := 20, stallTime := 180, stallRef := 50, budget := 4000, reserve := 200,
    stale := 300, accAz := 500, accEl := 400, derAccAz := 250, derAccEl := 200, cruiseAz := 150, cruiseEl := 120,
    holdLoad := 30, settle := 100, stowWait := 5, isolation := 10 }

/-- The class mask in force until section D is installed: WIND, DRIVE, HEAT, POWER and CONFIG (R169). -/
def defaultAlarmMask : BitVec 6 := 0b111101#6

/-- Defaults of section D (5.1), with no condition masked and the alarm class mask of R169. -/
def defaultD : SecD :=
  { power := ⟨300, 300, 300, 300⟩, gain := 25, melt := 30, antiIce := 5, frost := 10, wetMemory := 60, cycle := 20,
    masks := 0, alarm := defaultAlarmMask }

/-- The beacon exponent taken where section A is not installed (R181). -/
def defaultExponent : Nat := 10

/-- The control interval, 10 ms (1, introduction). -/
def controlMs : Nat := 10

/-- The brake timer of UNBRAKING (R3) and of STOPPING (R4), in ms. -/
def releaseTimeMs : Nat := 2000
def engageTimeMs : Nat := 1000

/-- Time a disagreement or a follow error must last (R7, R15, R100), in ms. -/
def persistMs : Nat := 500

/-- Filter times of the pin and key inputs (R48, R72) and of the precipitation input (R91), in ms. -/
def pinFilterMs : Nat := 50
def wetFilterMs : Nat := 2000

/-- Good reads in a row that end an encoder fault (R16). -/
def goodReads : Nat := 10

/-- The on-source second (R18), in ms. -/
def onSourceMs : Nat := 1000

/-- Capture distance (R12), in µdeg. -/
def captureUdeg : Int := 500

/-- The stow angle and the stow window (R48), in µdeg. -/
def stowAngle : Int := 90000000
def windowLow : Int := 89950000
def windowHigh : Int := 90050000

/-- The wind bin (R29), in ms; the length of the bin ring, of a block and of the block ring (R31, R32). -/
def binMs : Nat := 250
def ringBins : Nat := 12
def blockBins : Nat := 60
def ringBlocks : Nat := 40

/-- The most the pulse counters and a wind speed hold (R29, R30). -/
def counterMax : Nat := 1023
def speedMax : Nat := 999

/-- Shadow bins a wind proof may take (R45). -/
def shadowBinsMax : Nat := 16

/-- Derating ends below the threshold less this, in 0.1 m/s (R19). -/
def derateHysteresis : Nat := 20

/-- Rest, duplicate and noise times (R110, R115, R113), in ms; the abort streak and the noise limits (R110, R113). -/
def restMs : Nat := 1000
def duplicateMs : Nat := 30000
def secondMs : Nat := 1000
def abortLimit : Nat := 16
def noiseMax : Nat := 32
def noiseRaise : Nat := 16

/-- The gap, in bit times (R105). -/
def gapBits : Nat := 15

/-- Records of the peer table (R123); the period of its ages and of the wait age, in ms (R131, R142). -/
def tableMax : Nat := 24
def ageMs : Nat := 100
def ageMax : Nat := 65535
def waitAgeMax : Nat := 255

/-- Where loads and sums saturate, and the figure announced for a budget with section C failed (R141, R145). -/
def loadMax : Nat := 65535
def noBudget : Nat := 65535

/-- Console records in the list (R74), waiting console writes (R80), the time of a record write (R79), in ms. -/
def consoleMax : Nat := 7
def consoleQueueMax : Nat := 11
def queueMax : Nat := 16
def listMax : Nat := 12
def writeMs : Nat := 2

/-- The least time RESET must be asserted (R183) and the hold-up time of the retained store (R183), in ms. -/
def resetMs : Nat := 1
def holdUpMs : Nat := 200

/-- Failed polls that raise a sensor condition (R90); the sensor range and the fixed temperatures (5.1, R90). -/
def failedPolls : Nat := 3
def sensorLow : Int := -550
def sensorHigh : Int := 850
def wetTemperature : Int := 20
def assumedFrost : Int := -100

/-- Samples of a feedback proof's window (R177). -/
def proofSamples : Nat := 20

end Sys2Proof.Machine
end

