-- ==== Sys2Proof/Machine/StartValues.lean ====
section
/-! DEFINITION. The values every start gives the blocks (each chapter states its own), and the safe levels of the outputs. -/

namespace Sys2Proof.Machine

/-- R1. x and the last demand are the encoder reading once the start sequence has read it; until then 0 (log 4). -/
def startAxis : AxisRec :=
  { state := .braked, engaging := false, target := .none, x := 0, v := 0, carry := 0, lastDemand := 0, reading := none,
    answered := none, phase := .rest, load := 0, releasePending := false, followTimer := 0, brakeTimer := none,
    brakeSeen := false, idleTimer := none, mismatchTimer := 0, recovery := 0, encoderFault := false, fresh := false, duty := 500 }

/-- R1. -/
def startAxes : Axes :=
  { az := startAxis, el := startAxis, derating := false, onSource := false, onSourceTimer := 0 }

/-- R28. -/
def startWind : Wind :=
  { live := 0, standby := 0, ring := [], blockSum := 0, blockBins := 0, blocks := [], gust := 0, gustValid := false,
    mean := 0, meanValid := false, vote := .none, stall := 0, grace := some 0, usable := true, outLocal := false,
    outPeers := false, outBlind := false, effective := none, proof := none, binClock := none }

/-- The empty cause set. -/
def noCauses : Causes :=
  { windLocal := false, windPeers := false, blind := false, isolation := false, console := false }

/-- R47; the state stands as CLEAR until it is derived (log 5). -/
def startStow : StowUnit :=
  { state := .clear, causes := noCauses, holdTimer := none, pinTimer := none, pin := .off, park := .run,
    settleTimer := none, pendingRelease := false }

/-- An input that has not been taken since the start (R48, R72). -/
def startFilter : Filter := { sampled := false, level := false, held := 0, taken := none }

/-- Inputs before they are sampled (log 6). -/
def startInputs : Inputs :=
  { azLow := false, azHigh := false, elLow := false, elHigh := false, ampFault := false, azReleased := false,
    elReleased := false, zoneClosed := ⟨false, false, false, false⟩, pinEngaged := startFilter,
    pinRetracted := startFilter, keys := ⟨startFilter, startFilter, startFilter, startFilter⟩, wetLevel := false,
    wetHeld := 0 }

/-- R87, which gives the cycle phase no value before a zone's first cycle start: 0 is the model's choice (log 51). -/
def startZone : Zone :=
  { reading := none, fails := 0, demand := 0, power := 0, output := 0, cycle := 0, phase := 0, untilFirst := none,
    on := false, mismatch := 0 }

/-- R87, after a power-on; a warm start restores the mode. -/
def startHeater : Heater :=
  { mode := .auto, wet := false, memory := none, ambient := none, ambientFails := 0,
    zones := ⟨startZone, startZone, startZone, startZone⟩, target := .none, demand := 0, scale := 0, allowance := 0,
    load := 0 }

/-- R139: no claim. -/
def noClaim : Claim :=
  { kind := .none, state := .none, accAz := false, accEl := false, amount := 0, need := 0, waitAge := 0, waitSub := 0,
    announced := none, settled := false, announcedAge := 0, degraded := false, forced := false }

/-- R139; the fill timer starts at the start. -/
def startFeeder : Feeder :=
  { claim := noClaim, loadAz := 0, loadEl := 0, accelAz := false, accelEl := false, effective := 0, drive := 0,
    raw := 0, headroom := 0, ahead := 0, pool := 0, ownDemand := 0, allowance := 0, fill := some 0 }

/-- R106. -/
def startLine : LinePort :=
  { tx := .idle, pending := none, frame := none, aborts := 0, holdOff := none, abortedCrc := 0, restTimer := none,
    silence := .none, duplicateTimer := none, beaconTimer := none, dueTaken := false,
    noise := 0, noiseClock := 0, isolationTimer := none }

/-- R169. -/
def startCond : CondUnit :=
  { states := Vector.replicate 36 .clear, masks := 0, notices := 0, summary := 0, alarmMask := defaultAlarmMask,
    settled := false, proof := none }

/-- R180, R182: nothing read yet, the defaults standing where no section is installed. -/
def startSetup : Setup :=
  { secA := none, secB := defaultB, secC := defaultC, secD := defaultD, statusA := .unread, statusB := .unread,
    statusC := .unread, statusD := .unread, loading := some .a, encodersRead := false, configured := false }

/-- R167. -/
def startSlot : ResultSlot := { tag := 0, console := 0, code := .none }

/-- R183: the safe levels. -/
def safeOutputs : Outputs :=
  { azDuty := 500, elDuty := 500, azEnable := false, elEnable := false, azBrake := false, elBrake := false, pin := .off,
    zones := ⟨false, false, false, false⟩, alarm := true, stowed := false, encoderPower := true, lineDriven := false,
    synthetic := false }

/-- What the blocks read at the start instant, the list still empty (R69, R124). -/
def startEnv : Env :=
  { setup := startSetup, now := 0, peers := [], list := [], wind := startWind, inputs := startInputs }

/-- The acting blocks at the start instant of a power-on. -/
def startCore : Core :=
  { axes := startAxes, stow := startStow, heat := startHeater, line := startLine, fee := startFeeder,
    cond := startCond }

/-- A retained store that has lost its supply: the marker is invalid (R78, log 3). -/
def lostStore : Store :=
  { valid := false, emptying := false, records := [], marks := [], heat := .auto, heatOld := none, console := false,
    consoleOld := none, queue := [], writing := none }

/-- A store made empty and valid at a power-on; a reset soon after may find the emptying unfinished (R78; log 33). -/
def emptyStore : Store := { lostStore with valid := true, emptying := true }

end Sys2Proof.Machine
end

