-- ==== Sys2Proof/Machine/State.lean ====
section
/-! DEFINITION. The station's state, the state after reset, and the reasons a step can stop. -/

namespace Sys2Proof.Machine

/-- The station: plain data, everything the spec names, and the queue of waiting commands. -/
structure State where
  /-- the station is held in reset (R183) -/
  inReset : Bool
  env : Env
  core : Core
  store : Store
  slot : ResultSlot
  outputs : Outputs
  /-- the commands that wait, the first to be taken at the front (log 1) -/
  pending : List Instr
  deriving DecidableEq, Repr

/-- Why a step may fault. The spec stops the station on no command, so no meaning raises one. -/
inductive Fault where
  /-- Raised by nothing: every row of the table has an effect in every state. Safe. -/
  | neverRaised
  deriving DecidableEq, Repr

/-- Why a command may be refused. -/
inductive Refusal where
  /-- Raised by an arm of exec whose command has no meaning yet; no arm is left so. Safe. -/
  | notModelled (mnemonic : String)
  deriving DecidableEq, Repr

/-- The station on entry to its first reset: held in reset, the retained store without supply, every block at the values
a power-on gives it, every output at its safe level (R183; log 3). START_INSTANT begins the start sequence. -/
def State.reset : State :=
  { inReset := true, env := startEnv, core := startCore, store := lostStore, slot := startSlot, outputs := safeOutputs,
    pending := [] }

end Sys2Proof.Machine
end

