-- ==== Sys2Proof/Machine/Ops.lean ====
section
/-! DEFINITION. Named operations shared by the blocks: exact arithmetic, sets of four, filters, the axis records, and the beacon request. -/

namespace Sys2Proof.Machine

/-! ## Arithmetic (00, Conventions) -/

/-- A value outside lo to hi is replaced by the nearer end. -/
def clampInt (lo hi x : Int) : Int := max lo (min hi x)

/-- The magnitude of an integer, as an integer. -/
def absInt (x : Int) : Int := if x < 0 then -x else x

/-- −1, 0 or +1. -/
def signInt (x : Int) : Int := if x < 0 then -1 else if x = 0 then 0 else 1

/-- mdeg, mdeg/s or mdeg/s² into the internal unit (1.1). -/
def micro (m : Int) : Int := m * 1000

/-- One step of the integer square root: sets bit k of the root when its square still fits. -/
def isqrtBits (n : Nat) : Nat → Nat → Nat
  | 0, r => r
  | k + 1, r => isqrtBits n k (if (r + 2 ^ k) * (r + 2 ^ k) ≤ n then r + 2 ^ k else r)

/-- The floor of the integer square root of a number of 64 bits (R11). -/
def isqrt (n : Nat) : Nat := isqrtBits n 32 0

/-- A timer that runs takes dt more ms and stops at its limit. -/
def runTimer (dt limit : Nat) (t : Option Nat) : Option Nat := t.map fun e => min limit (e + dt)

/-- A timer has expired: it runs and has reached its limit. -/
def expired (t : Option Nat) (limit : Nat) : Bool :=
  match t with
  | none => false
  | some e => decide (limit ≤ e)

/-- A timer is running. -/
def running (t : Option Nat) : Bool := t.isSome

/-- The sum of a list of naturals. -/
def total (l : List Nat) : Nat := l.foldl (· + ·) 0

/-- Adds the newest entry to a ring that holds at most n, the oldest leaving it first. -/
def pushRing (n : Nat) (l : List Nat) (x : Nat) : List Nat :=
  if l.length < n then l ++ [x] else l.drop 1 ++ [x]

/-! ## Sets of four -/

def fourGet {α : Type} (f : Four α) (i : Fin 4) : α :=
  match i with
  | 0 => f.z1
  | 1 => f.z2
  | 2 => f.z3
  | 3 => f.z4

def fourSet {α : Type} (f : Four α) (i : Fin 4) (x : α) : Four α :=
  match i with
  | 0 => { f with z1 := x }
  | 1 => { f with z2 := x }
  | 2 => { f with z3 := x }
  | 3 => { f with z4 := x }

def fourMap {α β : Type} (g : α → β) (f : Four α) : Four β := ⟨g f.z1, g f.z2, g f.z3, g f.z4⟩

/-- Makes four from their numbers. -/
def fourOf {β : Type} (g : Fin 4 → β) : Four β := ⟨g 0, g 1, g 2, g 3⟩

/-- The four numbers, in order. -/
def allFour : List (Fin 4) := [0, 1, 2, 3]

/-! ## Filters (R48, R72, R91) -/

/-- One more counted sample of a filtered input, `ms` after the one before: a level that holds adds them up to the filter
time; another level begins afresh at 0; the first sample since the start counts `first` (R48, R72, R185; log 14). -/
def filterSample (limit first ms : Nat) (level : Bool) (f : Filter) : Filter :=
  if f.sampled ∧ f.level = level then { f with held := min limit (f.held + ms) }
  else { f with sampled := true, level := level, held := if f.sampled then 0 else min limit first }

/-- The input has shown one level for the filter time. -/
def filterReady (limit : Nat) (f : Filter) : Bool := decide (limit ≤ f.held)

/-! ## Axis records -/

def axisOf (a : Axes) : Axis → AxisRec
  | .az => a.az
  | .el => a.el

def setAxisOf (a : Axes) (i : Axis) (r : AxisRec) : Axes :=
  match i with
  | .az => { a with az := r }
  | .el => { a with el := r }

/-- The record of one axis. -/
def getAxis (k : Core) (i : Axis) : AxisRec := axisOf k.axes i

/-- Replaces the record of one axis. -/
def putAxis (k : Core) (i : Axis) (r : AxisRec) : Core := { k with axes := setAxisOf k.axes i r }

def otherAxis : Axis → Axis
  | .az => .el
  | .el => .az

/-- An axis in UNBRAKING or ACTIVE. -/
def isMoving (r : AxisRec) : Bool :=
  match r.state with
  | .unbraking | .active => true
  | _ => false

/-- An axis holds a SLEW or TRACK target. -/
def isPointing (r : AxisRec) : Bool :=
  match r.target with
  | .slew _ | .track _ _ _ => true
  | _ => false

def isHolding (r : AxisRec) : Bool :=
  match r.target with
  | .hold _ => true
  | _ => false

/-- Some axis is in FAULT. -/
def someFault (k : Core) : Bool := k.axes.az.state = .fault || k.axes.el.state = .fault

/-- An encoder reading as a number: an unread one counts as 0 (R185). -/
def readingOf (r : AxisRec) : Int := r.reading.getD 0

/-- The last elevation reading lies within the stow window (R48); an unread one lies outside (R185). -/
def inWindow (k : Core) : Bool :=
  match k.axes.el.reading with
  | none => false
  | some p => decide (windowLow ≤ p) && decide (p ≤ windowHigh)

/-! ## The lockout list as the other blocks see it (R70, R86) -/

/-- A blocking record: kind DRIVE or ALL, or any UNCERTAIN record (R70). -/
def isBlocking (l : Lock) : Bool := l.uncertain || l.kind = .drive || l.kind = .all

/-- The list holds a blocking record. -/
def blocking (ls : List Lock) : Bool := ls.any isBlocking

/-- The list holds a HELD record of the kind. -/
def heldKind (ls : List Lock) (k : LockKind) : Bool := ls.any fun l => !l.uncertain && l.kind = k

/-- Some record is UNCERTAIN. -/
def someUncertain (ls : List Lock) : Bool := ls.any fun l => l.uncertain

/-- A record that keeps the heaters off: HEAT, ALL or UNCERTAIN (R85). -/
def heatBlocked (ls : List Lock) : Bool := ls.any fun l => l.uncertain || l.kind = .heat || l.kind = .all

/-- A record under which the own dish creeps: AREA, ALL or UNCERTAIN (R20). -/
def areaHeld (ls : List Lock) : Bool := ls.any fun l => l.uncertain || l.kind = .area || l.kind = .all

/-- A record under which POINT is refused: POINT, DRIVE, ALL or UNCERTAIN (R21). -/
def pointBlocked (ls : List Lock) : Bool := blocking ls || ls.any fun l => l.kind = .point

/-- The system record, if one is held (R69). -/
def systemRecord (ls : List Lock) : Option Lock := ls.find? fun l => l.origin = .system

/-- The record (ALL, SYSTEM) is held. -/
def systemAll (ls : List Lock) : Bool := ls.any fun l => l.origin = .system && l.kind = .all

/-- The cold flag: the system record is of kind POINT (R86). -/
def coldHeld (ls : List Lock) : Bool := ls.any fun l => l.origin = .system && l.kind = .point

/-- The bit of a kind in the set of lockout kinds (12.4). -/
def kindBit : LockKind → BitVec 5
  | .point => 0b00001#5
  | .drive => 0b00010#5
  | .heat => 0b00100#5
  | .area => 0b01000#5
  | .all => 0b10000#5

/-- The set of announced kinds (R86). -/
def announcedKinds (ls : List Lock) : BitVec 5 :=
  ls.foldl (fun acc l => acc ||| (if l.uncertain then kindBit .all else kindBit l.kind)) 0

/-! ## Restrictions of the neighbourhood (R20) -/

/-- A NEIGHBOUR record announces AREA or ALL, FRESH or STALE: the clearance restriction applies. -/
def clearanceApplies (e : Env) : Bool :=
  e.peers.any fun p => p.relNeighbour && !((p.kinds &&& (kindBit .area ||| kindBit .all)) == 0)

/-- The creep restriction applies. -/
def creepApplies (e : Env) : Bool := areaHeld e.list || clearanceApplies e

/-! ## Beacon requests (R107) -/

/-- The lower of two priority numbers. -/
def lowerPriority : Priority → Priority → Priority
  | .urgent, _ => .urgent
  | .normal, q => q

/-- A request on the line port: makes a beacon pending or raises the pending one, and moves IDLE to GAP. -/
def requestOn (p : Priority) (l : LinePort) : LinePort :=
  { l with
    pending := some (match l.pending with
      | none => p
      | some q => lowerPriority p q)
    tx := if l.tx = .idle then .gap else l.tx }

/-- A beacon request (R107). -/
def request (p : Priority) (k : Core) : Core := { k with line := requestOn p k.line }

/-! ## Waking (R66) -/

/-- The first read after encoder power returns is tested against the reading kept through PARKED (R16, R27). -/
def keepReading (r : AxisRec) : AxisRec := { r with answered := r.reading }

/-- A wake event: a PARKED station becomes WAKING and starts its settle timer; another is unchanged. -/
def wakeEvent (k : Core) : Core :=
  if k.stow.park = .parked then
    { k with
      stow := { k.stow with park := .waking, settleTimer := some 0 }
      axes := { k.axes with az := keepReading k.axes.az, el := keepReading k.axes.el } }
  else k

end Sys2Proof.Machine
end

