-- ==== Sys2Proof/Machine/Operands.lean ====
section
/-! DEFINITION. Operand forms: the CRC-16, the layouts of frames, beacons and orders, the encodings of enumerated values, and the checks of the configuration image (chapters 6.1, 11.1 and 12). -/

namespace Sys2Proof.Machine

/-! ## Bytes -/

def byteAt (l : List Byte) (i : Nat) : Byte := l.getD i 0

/-- Two bytes, most significant first (12, introduction). -/
def wordAt (l : List Byte) (i : Nat) : BitVec 16 := byteAt l i ++ byteAt l (i + 1)

/-- Three bytes, most significant first. -/
def tripleAt (l : List Byte) (i : Nat) : BitVec 24 := byteAt l i ++ byteAt l (i + 1) ++ byteAt l (i + 2)

def natAt (l : List Byte) (i : Nat) : Nat := (byteAt l i).toNat
def nat16At (l : List Byte) (i : Nat) : Nat := (wordAt l i).toNat
def int16At (l : List Byte) (i : Nat) : Int := (wordAt l i).toInt
def int24At (l : List Byte) (i : Nat) : Int := (tripleAt l i).toInt

/-- A 16-bit number as its two bytes. -/
def bytes16 (w : BitVec 16) : List Byte := [w.extractLsb' 8 8, w.extractLsb' 0 8]

/-- A 24-bit number as its three bytes. -/
def bytes24 (w : BitVec 24) : List Byte := [w.extractLsb' 16 8, w.extractLsb' 8 8, w.extractLsb' 0 8]

/-! ## CRC-16 (R104, R180) -/

/-- One data bit into the CRC of polynomial x^16 + x^12 + x^5 + 1. -/
def crcBit (c : BitVec 16) (b : Bool) : BitVec 16 :=
  if c.msb = b then c <<< 1 else (c <<< 1) ^^^ 0x1021#16

/-- One character, most significant bit first. -/
def crcByte (c : BitVec 16) (b : Byte) : BitVec 16 :=
  [7, 6, 5, 4, 3, 2, 1, 0].foldl (fun a i => crcBit a (b.getLsbD i)) c

/-- The CRC-16 of a list of bytes: initial value all ones, no final inversion. -/
def crc16 (l : List Byte) : BitVec 16 := l.foldl crcByte 0xFFFF#16

/-! ## Frames (R104, R112, 12.1) -/

/-- The code of a frame kind: 5 for a beacon, 9 for an order (12.1). -/
def beaconKind : BitVec 4 := 5
def orderKind : BitVec 4 := 9

/-- The payload lengths of a beacon and of the longest order and frame (R104, R112). -/
def beaconLength : Nat := 33
def orderLengthMax : Nat := 14
def payloadMax : Nat := 40

/-- The arbitration word: priority, origin, frame kind (R104). -/
def arbitrationWord (priority : BitVec 3) (origin : Byte) (kind : BitVec 4) : BitVec 15 := priority ++ origin ++ kind

/-- The two arbitration characters: the word and the fill bit, sent recessive, which is 1 (12.1, R187). -/
def arbitrationBytes (priority : BitVec 3) (origin : Byte) (kind : BitVec 4) : List Byte :=
  bytes16 (arbitrationWord priority origin kind ++ (1#1 : BitVec 1))

/-- The characters of a frame that its CRC covers (R104). -/
def coveredBytes (arb : List Byte) (payload : List Byte) : List Byte :=
  arb ++ [BitVec.ofNat 8 payload.length] ++ payload

/-- The frame kind in the second arbitration character (12.1). -/
def kindOfFrame (f : RawFrame) : BitVec 4 := f.second.extractLsb' 1 4

/-- The origin in the two arbitration characters (12.1). -/
def originOfFrame (f : RawFrame) : Byte := f.first.extractLsb' 0 5 ++ f.second.extractLsb' 5 3

/-- A frame passes every check of R112. -/
def frameIntact (f : RawFrame) : Bool :=
  f.stopsGood && f.second.getLsbD 0 && decide (f.length.toNat ≤ payloadMax)
    && !(kindOfFrame f == beaconKind && f.length.toNat != beaconLength)
    && !(kindOfFrame f == orderKind && decide (orderLengthMax < f.length.toNat))
    && f.unbroken && f.payload.length == f.length.toNat
    && crc16 ([f.first, f.second, f.length] ++ f.payload) == f.checkHigh ++ f.checkLow

/-- Bit times of a frame of L payload characters (R104). -/
def frameBits (payload : Nat) : Nat := 10 * (payload + 5)

/-- The 3-bit priority number of an own beacon (R104). -/
def priorityCode : Priority → BitVec 3
  | .urgent => 0
  | .normal => 2

/-! ## Encodings of enumerated values (12.4) -/

def claimKindCode : ClaimKind → BitVec 4
  | .none => 0
  | .slew => 1
  | .stow => 2

def claimKindOf (c : BitVec 4) : Option ClaimKind :=
  if c = 0 then some .none else if c = 1 then some .slew else if c = 2 then some .stow else none

def claimStateCode : ClaimState → BitVec 4
  | .none => 0
  | .waiting => 1
  | .active => 2

def claimStateOf (c : BitVec 4) : Option ClaimState :=
  if c = 0 then some .none else if c = 1 then some .waiting else if c = 2 then some .active else none

def voteCode : Vote → BitVec 2
  | .none => 0
  | .calm => 1
  | .watch => 2
  | .stow => 3

def voteOf (c : BitVec 2) : Vote :=
  if c = 0 then .none else if c = 1 then .calm else if c = 2 then .watch else .stow

def stowStateCode : StowState → BitVec 3
  | .clear => 0
  | .demanded => 1
  | .moving => 2
  | .pinning => 3
  | .stowed => 4
  | .releasing => 5
  | .blocked => 6
  | .failed => 7

/-- The stow cause set's bits. -/
def causeBits (c : Causes) : BitVec 5 :=
  BitVec.ofBool c.console ++ BitVec.ofBool c.isolation ++ BitVec.ofBool c.blind ++ BitVec.ofBool c.windPeers
    ++ BitVec.ofBool c.windLocal

def resultCode : Code → Byte
  | .none => 0
  | .done => 1
  | .clamped => 2
  | .locked => 3
  | .stowing => 4
  | .fault => 5
  | .busy => 6
  | .owner => 7
  | .full => 8
  | .holding => 9
  | .cause => 10
  | .argument => 11
  | .state => 12

/-- A lockout kind as a value. -/
def lockKindOf (n : Nat) : Option LockKind :=
  match n with
  | 1 => some .point
  | 2 => some .drive
  | 3 => some .heat
  | 4 => some .area
  | 5 => some .all
  | _ => none

def heatModeOf (n : Nat) : Option HeatMode :=
  match n with
  | 1 => some .auto
  | 2 => some .off
  | 3 => some .force
  | _ => none

/-- What a PROVE order names (R176): whether it names WIND, and whether FEEDBACK. -/
def proofTargetOf (n : Nat) : Option (Bool × Bool) :=
  match n with
  | 1 => some (true, false)
  | 2 => some (false, true)
  | 3 => some (true, true)
  | _ => none

def keySenseOf (n : Nat) : Option KeySense :=
  match n with
  | 0 => some .disabled
  | 1 => some .activeHigh
  | 2 => some .activeLow
  | _ => none

def bitRateOf (n : Nat) : Option BitRate :=
  match n with
  | 1 => some .k125
  | 2 => some .k250
  | 3 => some .k500
  | _ => none

/-! ## Beacon payload (12.2) -/

/-- The fields of a beacon as they stand on the line. -/
structure Beacon where
  exponent : BitVec 4
  posture : BitVec 4
  feeder : BitVec 4
  subarray : BitVec 4
  budget : BitVec 16
  flags : BitVec 5
  load : BitVec 16
  claimKind : BitVec 4
  claimState : BitVec 4
  need : BitVec 16
  waitAge : BitVec 8
  demand : BitVec 16
  heaterLoad : BitVec 16
  gust : BitVec 16
  mean : BitVec 16
  vote : BitVec 2
  stowState : BitVec 3
  causes : BitVec 5
  kinds : BitVec 5
  azimuth : BitVec 24
  elevation : BitVec 24
  tag : BitVec 8
  console : BitVec 8
  code : BitVec 8
  summary : BitVec 6
  notices : BitVec 6
  deriving DecidableEq, Repr

/-- The 33 payload bytes of a beacon, every spare bit 0 (R187). -/
def encodeBeacon (b : Beacon) : List Byte :=
  [b.exponent ++ b.posture, b.feeder ++ b.subarray] ++ bytes16 b.budget ++ [0#3 ++ b.flags] ++ bytes16 b.load
    ++ [b.claimKind ++ b.claimState] ++ bytes16 b.need ++ [b.waitAge] ++ bytes16 b.demand ++ bytes16 b.heaterLoad
    ++ bytes16 b.gust ++ bytes16 b.mean ++ [b.vote ++ 0#3 ++ b.stowState, 0#3 ++ b.causes, 0#3 ++ b.kinds]
    ++ bytes24 b.azimuth ++ bytes24 b.elevation ++ [b.tag, b.console, b.code, 0#2 ++ b.summary, 0#2 ++ b.notices]

/-- The fields of a beacon's payload; spare bits play no part (R188). -/
def decodeBeacon (l : List Byte) : Beacon :=
  { exponent := (byteAt l 0).extractLsb' 4 4, posture := (byteAt l 0).extractLsb' 0 4
    feeder := (byteAt l 1).extractLsb' 4 4, subarray := (byteAt l 1).extractLsb' 0 4
    budget := wordAt l 2, flags := (byteAt l 4).extractLsb' 0 5, load := wordAt l 5
    claimKind := (byteAt l 7).extractLsb' 4 4, claimState := (byteAt l 7).extractLsb' 0 4
    need := wordAt l 8, waitAge := byteAt l 10, demand := wordAt l 11, heaterLoad := wordAt l 13
    gust := wordAt l 15, mean := wordAt l 17
    vote := (byteAt l 19).extractLsb' 6 2, stowState := (byteAt l 19).extractLsb' 0 3
    causes := (byteAt l 20).extractLsb' 0 5, kinds := (byteAt l 21).extractLsb' 0 5
    azimuth := tripleAt l 22, elevation := tripleAt l 25
    tag := byteAt l 28, console := byteAt l 29, code := byteAt l 30
    summary := (byteAt l 31).extractLsb' 0 6, notices := (byteAt l 32).extractLsb' 0 6 }

/-- The content check of R125: every field the table tests lies in its range. Every code of the local vote and of the
stow state is defined (12.4), so those two need no test. -/
def beaconWellFormed (b : Beacon) : Bool :=
  decide (6 ≤ b.exponent.toNat) && decide (1 ≤ b.feeder.toNat) && decide (b.gust.toNat ≤ speedMax)
    && decide (b.mean.toNat ≤ speedMax) && decide (b.posture.toNat ≤ 9) && (claimKindOf b.claimKind).isSome
    && (claimStateOf b.claimState).isSome && ((b.claimKind == 0) == (b.claimState == 0))

/-! ## Order arguments (12.3) -/

/-- An order's fields from its frame's origin and payload (12.3). A payload that ends early reads 0 beyond its end: no
scope code, no number of a scope and no order kind is 0 (log 32). -/
def orderAt (console : Byte) (p : List Byte) : Order :=
  { console := console, tag := byteAt p 0, scope := byteAt p 1, number := byteAt p 2, args := p.drop 4 }

/-- The order kind's code in an order's payload (12.3). -/
def kindAt (p : List Byte) : Byte := byteAt p 3

/-- The arguments of POINT: azimuth and elevation in mdeg, two rates in mdeg/s. -/
structure PointArgs where
  azimuth : Int
  elevation : Int
  azRate : Int
  elRate : Int
  deriving DecidableEq, Repr

/-- POINT's arguments from offset 4 on; none where the length is not POINT's (R164). -/
def pointArgs (args : List Byte) : Option PointArgs :=
  if args.length = 10 then
    some { azimuth := int24At args 0, elevation := int24At args 3, azRate := int16At args 6, elRate := int16At args 8 }
  else none

/-- The one argument byte of LOCK, UNLOCK, HEAT, CLEAR and PROVE; none where the length is not theirs. -/
def oneByteArg (args : List Byte) : Option Byte :=
  match args with
  | [b] => some b
  | _ => none

/-- The class set of a CLEAR order; none where it is empty or the length is not CLEAR's (R164, R188). -/
def classSetArg (args : List Byte) : Option (BitVec 6) :=
  match oneByteArg args with
  | none => none
  | some b => if b.extractLsb' 0 6 = (0 : BitVec 6) then none else some (b.extractLsb' 0 6)

def lockKindArg (args : List Byte) : Option LockKind := (oneByteArg args).bind fun b => lockKindOf b.toNat
def heatModeArg (args : List Byte) : Option HeatMode := (oneByteArg args).bind fun b => heatModeOf b.toNat
def proofTargetArg (args : List Byte) : Option (Bool × Bool) := (oneByteArg args).bind fun b => proofTargetOf b.toNat

/-- The arguments of an order kind that has none. -/
def noArgs (args : List Byte) : Option Unit := if args = [] then some () else none

/-- The code of an order kind is one that 12.3 defines. -/
def orderKindDefined (kind : Byte) : Bool := decide (1 ≤ kind.toNat) && decide (kind.toNat ≤ 13)

/-! ## The configuration image (R180, 12.5) -/

def sectionCode : SectionId → Nat
  | .a => 1
  | .b => 2
  | .c => 3
  | .d => 4

def sectionSize : SectionId → Nat
  | .a => 32
  | .b => 96
  | .c => 64
  | .d => 48

/-- The whole section was acknowledged, its identifier names it, and its stored check is its CRC-16. -/
def sectionIntact (i : SectionId) (l : List Byte) : Bool :=
  decide (sectionSize i ≤ l.length) && natAt l 0 == sectionCode i
    && crc16 (l.take (sectionSize i - 2)) == wordAt l (sectionSize i - 2)

def inRange (lo hi x : Nat) : Bool := decide (lo ≤ x) && decide (x ≤ hi)
def inRangeInt (lo hi x : Int) : Bool := decide (lo ≤ x) && decide (x ≤ hi)

/-- The kinds a key may be given (chapter 4.2). -/
def keyConfigOf (b : Byte) : Option KeyConfig :=
  match lockKindOf (b.extractLsb' 4 4).toNat, keySenseOf (b.extractLsb' 0 4).toNat with
  | some .point, _ => none
  | some k, some s => some { kind := k, sense := s }
  | _, _ => none

/-- A list of section A: its count in range, its entries stations, none of them named twice but the own number, which is
ignored (R180). -/
def stationList (own max count : Nat) (l : List Nat) : Option (List Nat) :=
  let entries := l.take count
  if count ≤ max ∧ entries.all (inRange 1 64) ∧ (entries.filter (· != own)).Nodup then some entries else none

/-- `n` bytes from offset i on, as numbers. -/
def natsAt (l : List Byte) (i n : Nat) : List Nat := ((l.drop i).take n).map BitVec.toNat

/-- Section A (12.5), none where a check of R180 fails. -/
def parseA (l : List Byte) : Option SecA :=
  match stationList (natAt l 1) 6 (natAt l 4) (natsAt l 5 6), stationList (natAt l 1) 8 (natAt l 11) (natsAt l 12 8),
      keyConfigOf (byteAt l 20), keyConfigOf (byteAt l 21), keyConfigOf (byteAt l 22), keyConfigOf (byteAt l 23),
      bitRateOf (natAt l 24) with
  | some ns, some ws, some k1, some k2, some k3, some k4, some r =>
    if sectionIntact .a l && inRange 1 64 (natAt l 1) && inRange 1 15 (natAt l 2) && inRange 0 15 (natAt l 3)
        && inRange 8 12 (natAt l 25) then
      some { station := natAt l 1, feeder := natAt l 2, subarray := natAt l 3, neighbours := ns, windList := ws,
             keys := ⟨k1, k2, k3, k4⟩, bitRate := r, exponent := natAt l 25 }
    else none
  | _, _, _, _, _, _, _ => none

/-- An axis group of section B, from offset i (12.5). -/
def axisGroup (l : List Byte) (i : Nat) : AxisParams :=
  { vmax := nat16At l i, amax := nat16At l (i + 2), derVmax := nat16At l (i + 4), derAmax := nat16At l (i + 6),
    kp := natAt l (i + 8), vcmdMax := nat16At l (i + 9), follow := nat16At l (i + 11), jump := nat16At l (i + 13),
    offset := int24At l (i + 15) }

/-- The ranges of an axis group (1.1). -/
def axisGood (p : AxisParams) : Bool :=
  inRange 100 6000 p.vmax && inRange 100 10000 p.amax && inRange 100 p.vmax p.derVmax && inRange 100 p.amax p.derAmax
    && inRange 5 200 p.kp && inRange p.vmax 10000 p.vcmdMax && inRange 10 10000 p.follow && inRange 10 20000 p.jump
    && inRangeInt (-360000) 360000 p.offset

/-- The ranges and orderings of section B (1.1, 3.1, R180). -/
def goodB (b : SecB) : Bool :=
  inRangeInt (-270000) 270000 b.azMin && inRangeInt (-270000) 270000 b.azMax && decide (b.azMin < b.azMax)
    && inRangeInt 2000 15000 b.elMin && axisGood b.az && axisGood b.el && inRange 1 1000 b.window
    && inRange 10 1000 b.trackBand && inRange 10 1000 b.creep && inRangeInt b.elMin 90000 b.clearance
    && inRange 10 600 b.idleBrake && inRange 5 60 b.pinLimit && inRange 500 10000 b.wakeSettle

/-- Section B (12.5), none where a check of R180 fails. -/
def parseB (l : List Byte) : Option SecB :=
  let b : SecB :=
    { azMin := int24At l 1, azMax := int24At l 4, elMin := int24At l 7, az := axisGroup l 10, el := axisGroup l 28,
      window := nat16At l 46, trackBand := nat16At l 48, creep := nat16At l 50, clearance := int24At l 52,
      idleBrake := nat16At l 55, pinLimit := natAt l 57, wakeSettle := nat16At l 58 }
  if sectionIntact .b l && goodB b then some b else none

/-- The ranges and orderings of section C (2.1, 3.1, 6.5, 8.1, R180). -/
def goodC (c : SecC) : Bool :=
  inRange 10 2000 c.k && inRange 0 20 c.voff && inRange 10 999 c.watchGust && inRange 10 999 c.stowGust
    && inRange 10 999 c.stowMean && inRange 0 998 c.releaseGust && inRange 0 998 c.releaseMean
    && inRange 30 999 c.derate && inRange 1 6 c.quorum && inRange 1 120 c.releaseHold && inRange 30 600 c.stallTime
    && inRange 10 200 c.stallRef && inRange 100 65534 c.budget && inRange 0 5000 c.reserve && inRange 0 5000 c.stale
    && inRange 0 10000 c.accAz && inRange 0 10000 c.accEl && inRange 0 c.accAz c.derAccAz
    && inRange 0 c.accEl c.derAccEl && inRange 0 10000 c.cruiseAz && inRange 0 10000 c.cruiseEl
    && inRange 0 10000 c.holdLoad && inRange 20 500 c.settle && inRange 2 30 c.stowWait && inRange 2 60 c.isolation
    && decide (c.releaseGust < c.stowGust) && decide (c.releaseMean < c.stowMean)
    && decide (c.watchGust ≤ c.stowGust) && decide (c.reserve < c.budget)

/-- Section C (12.5), none where a check of R180 fails. -/
def parseC (l : List Byte) : Option SecC :=
  let c : SecC :=
    { k := nat16At l 1, voff := natAt l 3, watchGust := nat16At l 4, stowGust := nat16At l 6, stowMean := nat16At l 8,
      releaseGust := nat16At l 10, releaseMean := nat16At l 12, derate := nat16At l 14, quorum := natAt l 16,
      releaseHold := natAt l 17, stallTime := nat16At l 18, stallRef := nat16At l 20, budget := nat16At l 22,
      reserve := nat16At l 24, stale := nat16At l 26, accAz := nat16At l 28, accEl := nat16At l 30,
      derAccAz := nat16At l 32, derAccEl := nat16At l 34, cruiseAz := nat16At l 36, cruiseEl := nat16At l 38,
      holdLoad := nat16At l 40, settle := nat16At l 42, stowWait := natAt l 44, isolation := natAt l 45 }
  if sectionIntact .c l && goodC c then some c else none

/-- The ranges and the ordering of section D (5.1, R180). -/
def goodD (d : SecD) : Bool :=
  inRange 0 1000 d.power.z1 && inRange 0 1000 d.power.z2 && inRange 0 1000 d.power.z3 && inRange 0 1000 d.power.z4
    && inRange 1 250 d.gain && inRangeInt 10 150 d.melt && inRangeInt (-50) 100 d.antiIce
    && inRangeInt (-100) 50 d.frost && inRange 0 240 d.wetMemory && inRange 4 60 d.cycle
    && decide (d.antiIce < d.melt)

/-- The 36 masks from offsets 18 to 22: bit 7 of offset 18 is the catalogue's first condition (12.5). -/
def masksAt (l : List Byte) : BitVec 36 :=
  ((byteAt l 18 ++ byteAt l 19 ++ byteAt l 20 ++ byteAt l 21 ++ byteAt l 22).extractLsb' 4 36).reverse

/-- Section D (12.5), none where a check of R180 fails. Bits 0 to 3 of offset 22 and bits 6 and 7 of offset 23, which 12.5
neither defines nor calls spare, are ignored (log 56). -/
def parseD (l : List Byte) : Option SecD :=
  let d : SecD :=
    { power := ⟨nat16At l 1, nat16At l 3, nat16At l 5, nat16At l 7⟩, gain := natAt l 9, melt := int16At l 10,
      antiIce := int16At l 12, frost := int16At l 14, wetMemory := natAt l 16, cycle := natAt l 17,
      masks := masksAt l, alarm := (byteAt l 23).extractLsb' 0 6 }
  if sectionIntact .d l && goodD d then some d else none

end Sys2Proof.Machine
end

