-- ==== Sys2Proof/Machine/Flags.lean ====
section
/-! DEFINITION. The flags the station computes: conditions, class summary, notices and alarm level (chapter 10), the posture (R122) and the beacon interval in force (R118). -/

namespace Sys2Proof.Machine

/-! ## The catalogue (10.2) -/

/-- A condition's place in the catalogue, from 0. -/
def condIndex : Cond → Fin 36
  | .anemoStall => 0
  | .anemoProof => 1
  | .isolated => 2
  | .lineNoise => 3
  | .txFault => 4
  | .duplicate => 5
  | .tableFull => 6
  | .budgetMismatch => 7
  | .limit .az => 8
  | .limit .el => 9
  | .follow .az => 10
  | .follow .el => 11
  | .encoder .az => 12
  | .encoder .el => 13
  | .brake .az => 14
  | .brake .el => 15
  | .ampFault => 16
  | .pinFeedback => 17
  | .stowFailed => 18
  | .azRange => 19
  | .zoneSensor 0 => 20
  | .zoneSensor 1 => 21
  | .zoneSensor 2 => 22
  | .zoneSensor 3 => 23
  | .zoneFeedback 0 => 24
  | .zoneFeedback 1 => 25
  | .zoneFeedback 2 => 26
  | .zoneFeedback 3 => 27
  | .ambientSensor => 28
  | .overload => 29
  | .stowForced => 30
  | .sectionFailed .a => 31
  | .sectionFailed .b => 32
  | .sectionFailed .c => 33
  | .sectionFailed .d => 34
  | .proofFeedback => 35

/-- The 36 conditions in the order of the catalogue. -/
def allConds : List Cond :=
  [.anemoStall, .anemoProof, .isolated, .lineNoise, .txFault, .duplicate, .tableFull, .budgetMismatch, .limit .az,
   .limit .el, .follow .az, .follow .el, .encoder .az, .encoder .el, .brake .az, .brake .el, .ampFault, .pinFeedback]
  ++ [.stowFailed, .azRange, .zoneSensor 0, .zoneSensor 1, .zoneSensor 2, .zoneSensor 3, .zoneFeedback 0,
   .zoneFeedback 1, .zoneFeedback 2, .zoneFeedback 3, .ambientSensor, .overload, .stowForced, .sectionFailed .a,
   .sectionFailed .b, .sectionFailed .c, .sectionFailed .d, .proofFeedback]

/-- The class of a condition. -/
def classOf : Cond → Cls
  | .anemoStall | .anemoProof => .wind
  | .isolated | .lineNoise | .txFault | .duplicate | .tableFull | .budgetMismatch => .line
  | .limit _ | .follow _ | .encoder _ | .brake _ | .ampFault | .pinFeedback | .stowFailed | .azRange => .drive
  | .zoneSensor _ | .zoneFeedback _ | .ambientSensor => .heat
  | .overload | .stowForced => .power
  | .sectionFailed _ | .proofFeedback => .config

/-- A class's bit in a class set (12.4). -/
def classBit : Cls → BitVec 6
  | .wind => 0b000001#6
  | .line => 0b000010#6
  | .drive => 0b000100#6
  | .heat => 0b001000#6
  | .power => 0b010000#6
  | .config => 0b100000#6

/-- All classes. -/
def allClasses : List Cls := [.wind, .line, .drive, .heat, .power, .config]

/-- A class is in a class set. -/
def inClassSet (c : Cls) (s : BitVec 6) : Bool := !(s &&& classBit c == 0)

/-! ## Condition records (R169 to R174) -/

/-- The state of a condition. -/
def condAt (u : CondUnit) (c : Cond) : CondState := u.states[condIndex c]

/-- A condition is masked (R171). -/
def isMasked (m : BitVec 36) (c : Cond) : Bool := m.getLsbD (condIndex c)

/-- A condition is ACTIVE. -/
def isActive (k : Core) (c : Cond) : Bool := condAt k.cond c = .active

/-- A condition is ACTIVE or LATCHED. -/
def isRaised (k : Core) (c : Cond) : Bool := !(condAt k.cond c = .clear)

/-- The class summary: the classes with an unmasked condition ACTIVE or LATCHED (R172). -/
def summaryOf (states : Vector CondState 36) (masks : BitVec 36) : BitVec 6 :=
  allConds.foldl (fun acc c =>
    if isMasked masks c || states[condIndex c] = .clear then acc else acc ||| classBit (classOf c)) 0

/-- Gives a condition a state and recomputes the summary. -/
def setCond (c : Cond) (st : CondState) (u : CondUnit) : CondUnit :=
  { u with states := u.states.set (condIndex c) st, summary := summaryOf (u.states.set (condIndex c) st) u.masks }

/-- A frame in flight no longer serves a notice set again after its assembly (R120). -/
def keepNotice (c : Cls) (f : Frame) : Frame := { f with notices := f.notices &&& ~~~classBit c }

/-- Sets a class notice, which makes an urgent beacon request (R173). -/
def setNotice (c : Cls) (k : Core) : Core :=
  request .urgent
    { k with
      cond := { k.cond with notices := k.cond.notices ||| classBit c }
      line := { k.line with frame := k.line.frame.map (keepNotice c) } }

/-- A condition's cause appears (R170): notice for an unmasked one that was CLEAR (R173), wake event (R66). -/
def raiseCond (c : Cond) (k : Core) : Core :=
  if condAt k.cond c = .active then k
  else
    let k1 := { k with cond := setCond c .active k.cond }
    let k2 :=
      if condAt k.cond c = .clear && !isMasked k.cond.masks c && k.cond.settled then setNotice (classOf c) k1 else k1
    wakeEvent k2

/-- A condition's cause ends (R170). -/
def endCond (c : Cond) (k : Core) : Core :=
  if condAt k.cond c = .active then { k with cond := setCond c .latched k.cond } else k

/-- A cause that is present exactly while a test holds. -/
def syncCond (c : Cond) (present : Bool) (k : Core) : Core := if present then raiseCond c k else endCond c k

/-- Step 1 of CLEAR: the LATCHED conditions of the named classes become CLEAR (R175). -/
def clearLatched (classes : BitVec 6) (u : CondUnit) : CondUnit :=
  allConds.foldl (fun u c =>
    if condAt u c = .latched && inClassSet (classOf c) classes then setCond c .clear u else u) u

/-- A class has an unmasked condition ACTIVE. -/
def classActive (u : CondUnit) (cl : Cls) : Bool :=
  allConds.any fun c => classOf c = cl && condAt u c = .active && !isMasked u.masks c

/-- The masks are settled, by section D's installation or its failure: the notices held back are set (R169, R173). -/
def settleMasks (masks : BitVec 36) (alarm : BitVec 6) (k : Core) : Core :=
  let u := { k.cond with masks := masks, alarmMask := alarm, settled := true, summary := summaryOf k.cond.states masks }
  allClasses.foldl (fun k cl => if classActive k.cond cl then setNotice cl k else k) { k with cond := u }

/-- The level of the alarm line once configuration has completed (R174). -/
def alarmLevel (u : CondUnit) : Bool := !(u.summary &&& u.alarmMask == 0)

/-! ## Posture (R122) -/

inductive Posture where
  | config
  | idle
  | cold
  | pointing
  | fault
  | stowing
  | stowed
  | locked
  | parked
  | waking
  deriving DecidableEq, Repr

def postureCode : Posture → BitVec 4
  | .config => 0
  | .idle => 1
  | .cold => 2
  | .pointing => 3
  | .fault => 4
  | .stowing => 5
  | .stowed => 6
  | .locked => 7
  | .parked => 8
  | .waking => 9

/-- The stow states of posture STOWING. -/
def stowGoing : StowState → Bool
  | .demanded | .moving | .pinning | .releasing | .blocked => true
  | _ => false

/-- The posture: the first case of R122 that applies. The on-source flag plays no part, as R122's cases name none for it,
although R18 says that it enters the derivation (log 48). -/
def posture (e : Env) (k : Core) : Posture :=
  if !e.setup.configured || systemAll e.list then .config
  else if k.stow.park = .parked then .parked
  else if k.stow.park = .waking then .waking
  else if blocking e.list then .locked
  else if k.stow.state = .stowed then .stowed
  else if stowGoing k.stow.state then .stowing
  else if k.stow.state = .failed || someFault k then .fault
  else if isPointing k.axes.az || isPointing k.axes.el then .pointing
  else if coldHeld e.list then .cold
  else .idle

/-! ## Interval in force (R118) -/

/-- The configured beacon exponent; 10 without section A (R181). -/
def beaconExponent (e : Env) : Nat :=
  match e.setup.secA with
  | none => defaultExponent
  | some a => a.exponent

/-- The watch interval applies. -/
def watchApplies (e : Env) (k : Core) : Bool :=
  e.wind.vote = .watch || e.wind.vote = .stow || k.stow.state = .demanded || k.stow.state = .moving
    || k.stow.state = .pinning || k.stow.state = .releasing || !(k.fee.claim.state = .none)

/-- The exponent of the interval in force. -/
def exponentInForce (e : Env) (k : Core) : Nat :=
  if k.stow.park = .parked then beaconExponent e + 3
  else if watchApplies e k then beaconExponent e - 2
  else beaconExponent e

/-- The interval in force, in ms. -/
def intervalInForce (e : Env) (k : Core) : Nat := 2 ^ exponentInForce e k

/-- The start grace and the fill time, in ms (R40, R152). -/
def graceMs (e : Env) : Nat := 3000 + 2 * 2 ^ beaconExponent e

end Sys2Proof.Machine
end

