-- ==== Sys2Proof/Machine/Profile.lean ====
section
/-! DEFINITION. The trajectory profile, the phases and the position loop of one axis (chapters 1.3 and 1.4). Positions are µdeg, rates µdeg/s. -/

namespace Sys2Proof.Machine

/-- The parameters of an axis. -/
def axisParams (e : Env) : Axis → AxisParams
  | .az => e.setup.secB.az
  | .el => e.setup.secB.el

/-- The soft limits (1.1); the elevation upper limit is the stow angle. -/
def softLow (e : Env) : Axis → Int
  | .az => micro e.setup.secB.azMin
  | .el => micro e.setup.secB.elMin

def softHigh (e : Env) : Axis → Int
  | .az => micro e.setup.secB.azMax
  | .el => stowAngle

/-- The track band. -/
def trackBand (e : Env) : Int := micro e.setup.secB.trackBand

/-- The creep rate and the clearance elevation. -/
def creepRate (e : Env) : Int := micro e.setup.secB.creep
def clearanceElevation (e : Env) : Int := micro e.setup.secB.clearance

/-- The speed limit vlim (R10; log 15). -/
def speedLimit (e : Env) (k : Core) (i : Axis) : Int :=
  if creepApplies e then
    if k.axes.derating then min (micro (axisParams e i).derVmax) (creepRate e) else creepRate e
  else if k.axes.derating then micro (axisParams e i).derVmax
  else micro (axisParams e i).vmax

/-- The acceleration a: derated while derating (R10) and while the claim is degraded (R157). -/
def accelOf (e : Env) (k : Core) (i : Axis) : Int :=
  if k.axes.derating || k.fee.claim.degraded then micro (axisParams e i).derAmax else micro (axisParams e i).amax

/-- The step limit (R10). -/
def stepLimit (e : Env) (k : Core) (i : Axis) (v : Int) : Int :=
  if absInt v ≤ speedLimit e k i then accelOf e k i / 100 else micro (axisParams e i).amax / 100

/-- The braking speed for an error: the floor of the square root of 2·a·|e| (R11). -/
def brakingSpeed (a err : Int) : Int := (isqrt (2 * a * absInt err).toNat : Nat)

/-- The demand of a target before any limit (R9 step 1); without a target an axis would stay where it is. -/
def rawDemand (now : Nat) (x : Int) : Target → Int
  | .none => x
  | .hold p => p
  | .slew p => p
  | .track p0 r epoch => p0 + r * ((now : Int) - (epoch : Int))

/-- The feed-forward rate (1.3). -/
def feedForward : Target → Int
  | .track _ r _ => r * 1000
  | _ => 0

/-- A demand as R9 forms it: its value, the target as it then stands, and whether an azimuth track left the soft
limits. -/
structure Demand where
  d : Int
  target : Target
  rangeHit : Bool
  deriving DecidableEq, Repr

/-- The azimuth demand (R9 steps 1 and 2). -/
def azDemand (e : Env) (r : AxisRec) : Demand :=
  let u := rawDemand e.now r.x r.target
  let d := clampInt (softLow e .az) (softHigh e .az) u
  match r.target with
  | .track _ _ _ =>
    if d = u then { d := d, target := r.target, rangeHit := false }
    else { d := d, target := .hold d, rangeHit := true }
  | _ => { d := d, target := r.target, rangeHit := false }

/-- The last demand as the clearance step reads it: x in the first interval after UNBRAKING (R9). -/
def lastDemandFor (r : AxisRec) : Int := if r.fresh then r.x else r.lastDemand

/-- The elevation demand (R9 steps 1 to 3). -/
def elDemand (e : Env) (r : AxisRec) : Demand :=
  let d := clampInt (softLow e .el) (softHigh e .el) (rawDemand e.now r.x r.target)
  let c := clearanceElevation e
  if clearanceApplies e ∧ d < c then
    let d' := max d (min (max r.x (lastDemandFor r)) c)
    { d := d'
      target := match r.target with
        | .hold _ => .hold d'
        | .slew _ => .slew d'
        | t => t
      rangeHit := false }
  else { d := d, target := r.target, rangeHit := false }

/-- The demand of an axis (R9). -/
def formDemand (e : Env) (k : Core) : Axis → Demand
  | .az => azDemand e k.axes.az
  | .el => elDemand e k.axes.el

/-- The target speed (R11): towards the demand at the braking speed, within vlim, under the speed gate while the own
claim is not ACTIVE. -/
def targetSpeed (e : Env) (k : Core) (i : Axis) (err v rff : Int) : Int :=
  let vlim := speedLimit e k i
  let vt := clampInt (-vlim) vlim (signInt err * min vlim (brakingSpeed (accelOf e k i) err) + rff)
  if k.fee.claim.state = .active then vt
  else
    let gate := if v ≠ 0 ∧ signInt vt = signInt v then max (absInt v) (trackBand e) else trackBand e
    clampInt (-gate) gate vt

/-- An axis must accelerate above the track band for its target (R11). The demand is formed as R9 does for an axis that is
ACTIVE: for one that is not yet, the clearance step goes from the last demand, and not from x, which R9 gives for the
interval after UNBRAKING alone (DESIGN CHOICE, log 60). -/
def mustAccelerate (e : Env) (k : Core) (i : Axis) : Bool :=
  let r := getAxis k i
  match r.target with
  | .none => false
  | _ =>
    decide (trackBand e < min (speedLimit e k i) (brakingSpeed (accelOf e k i) ((formDemand e k i).d - r.x)))

/-- Position, rate and carry of a profile. -/
structure Motion where
  x : Int
  v : Int
  carry : Int
  deriving DecidableEq, Repr

/-- R12 step 2: the position takes the whole hundredths of the rate, the carry keeps the rest. -/
def moveBy (x v carry : Int) : Motion := { x := x + (v + carry) / 100, v := v, carry := (v + carry) % 100 }

/-- R12 step 4: a profile beyond a soft limit stands at it. -/
def softClamp (e : Env) (i : Axis) (m : Motion) : Motion :=
  if m.x < softLow e i then { x := softLow e i, v := 0, carry := 0 }
  else if softHigh e i < m.x then { x := softHigh e i, v := 0, carry := 0 }
  else m

/-- R12 step 3: close to its demand and slow enough, a profile snaps to it. -/
def captures (e : Env) (k : Core) (i : Axis) (err v : Int) : Bool :=
  decide (absInt err ≤ captureUdeg) && decide (absInt v ≤ accelOf e k i / 100)

/-- A captured SLEW target becomes HOLD (R12). -/
def capturedTarget (d : Int) : Target → Target
  | .slew _ => .hold d
  | t => t

/-- The idle-brake timer of an axis whose target has just become HOLD: it runs only in stow state CLEAR (R8). -/
def newIdleTimer (k : Core) : Option Nat := if k.stow.state = .clear then some 0 else none

/-- The record of an ACTIVE axis after its profile step (R9 to R12). -/
def advanceActive (e : Env) (k : Core) (i : Axis) : AxisRec :=
  let r := getAxis k i
  let dm := formDemand e k i
  let rff := feedForward dm.target
  let err := dm.d - r.x
  let lim := stepLimit e k i r.v
  let v1 := r.v + clampInt (-lim) lim (targetSpeed e k i err r.v rff - r.v)
  let cap := captures e k i err v1
  let m := if cap then { x := dm.d, v := rff, carry := 0 } else moveBy r.x v1 r.carry
  let m := softClamp e i m
  let tgt := if cap then capturedTarget dm.d dm.target else dm.target
  { r with
    x := m.x
    v := m.v
    carry := m.carry
    lastDemand := dm.d
    target := tgt
    fresh := false
    idleTimer := if isHolding { r with target := tgt } && !isHolding r then newIdleTimer k else r.idleTimer }

/-- The record of a STOPPING axis after its interval (R4): it decelerates, and engages its brake once v is 0. -/
def advanceStopping (e : Env) (k : Core) (i : Axis) : AxisRec :=
  let r := getAxis k i
  if r.engaging then r
  else
    let v1 := r.v - signInt r.v * min (absInt r.v) (stepLimit e k i r.v)
    let m := softClamp e i (moveBy r.x v1 r.carry)
    { r with
      x := m.x
      v := m.v
      carry := m.carry
      engaging := decide (m.v = 0)
      brakeTimer := if m.v = 0 then some 0 else r.brakeTimer
      brakeSeen := r.brakeSeen && decide (m.v ≠ 0) }

/-- The phase of a moving axis (R13). -/
def phaseOf (e : Env) (v v' : Int) (t : Target) : Phase :=
  if absInt v < absInt v' ∧ trackBand e < absInt v' then .accel
  else if trackBand e < absInt v' then .cruise
  else
    match t with
    | .track _ _ _ => .track
    | _ => .rest

/-- The accelerating load of an axis: derated where the flag says so. -/
def accelLoad (e : Env) (derated : Bool) : Axis → Nat
  | .az => if derated then e.setup.secC.derAccAz else e.setup.secC.accAz
  | .el => if derated then e.setup.secC.derAccEl else e.setup.secC.accEl

def cruiseLoad (e : Env) : Axis → Nat
  | .az => e.setup.secC.cruiseAz
  | .el => e.setup.secC.cruiseEl

/-- The phase load (R13). -/
def phaseLoad (e : Env) (k : Core) (i : Axis) (p : Phase) : AxisState → Nat
  | .braked | .fault => 0
  | _ =>
    match p with
    | .rest | .track => e.setup.secC.holdLoad
    | .cruise => cruiseLoad e i
    | .accel => accelLoad e k.axes.derating i

/-- The rate demand duty of the position loop (R14). -/
def loopDuty (p : AxisParams) (x v reading : Int) : Int :=
  let lim := micro p.vcmdMax
  let u := clampInt (-lim) lim (v + (p.kp : Int) * (x - reading) / 10)
  clampInt 0 1000 (500 + u * 500 / lim)

/-- The follow timer after one more interval (R15). -/
def followNext (p : AxisParams) (r : AxisRec) : Nat :=
  if micro p.follow < absInt (r.x - readingOf r) then min persistMs (r.followTimer + controlMs) else 0

/-- The profile, position loop, follow test, phase and load of one axis in one control interval (R9 to R15). -/
def axisInterval (e : Env) (k : Core) (i : Axis) : AxisRec :=
  let r := getAxis k i
  let p := axisParams e i
  match r.state with
  | .braked | .fault => { r with phase := .rest, load := 0, duty := 500 }
  | .unbraking =>
    { r with phase := .rest, load := phaseLoad e k i .rest r.state, duty := loopDuty p r.x r.v (readingOf r) }
  | .active =>
    let n := advanceActive e k i
    let ph := phaseOf e r.v n.v n.target
    { n with
      phase := ph, load := phaseLoad e k i ph n.state, duty := loopDuty p n.x n.v (readingOf n),
      followTimer := followNext p n }
  | .stopping =>
    let n := advanceStopping e k i
    let ph := phaseOf e r.v n.v n.target
    { n with
      phase := ph, load := phaseLoad e k i ph n.state, duty := loopDuty p n.x n.v (readingOf n),
      followTimer := followNext p n }

end Sys2Proof.Machine
end

