-- ==== Sys2Proof/Machine/StowBase.lean ====
section
/-! DEFINITION. Changes of the stow state, the pin command and the idle-brake timers that follow it (R8, R48, R49). -/

namespace Sys2Proof.Machine

/-- The idle-brake timer when the stow state becomes CLEAR: it restarts for an ACTIVE, holding axis (R8). -/
def idleAtClear (r : AxisRec) : AxisRec :=
  { r with idleTimer := if r.state = .active ∧ isHolding r then some 0 else none }

/-- While the stow state is not CLEAR the idle-brake timer is stopped (R8). -/
def idleStopped (r : AxisRec) : AxisRec := { r with idleTimer := none }

/-- The cause of STOW_FAILED is present while the stow state is FAILED and some axis is in FAULT (R61). -/
def syncStowFailed (k : Core) : Core := syncCond .stowFailed (k.stow.state = .failed && someFault k) k

/-- The stow unit with a new state: the pin is driven out in PINNING and off in every other state until a rule drives it
in (R48); a pending release does not outlast STOWED (R67). -/
def enterStow (new : StowState) (u : StowUnit) : StowUnit :=
  { u with
    state := new
    pin := if new = .pinning then .drivenOut else .off
    pinTimer := if new = .pinning then some 0 else none
    pendingRelease := if u.state = .stowed then false else u.pendingRelease }

/-- A change of stow state: pin command, idle-brake timers, urgent beacon request (R49), and a wake event where it
leaves STOWED (R66). The same state again changes nothing. -/
def setStow (new : StowState) (k : Core) : Core :=
  if k.stow.state = new then k
  else
    let idle := if new = .clear then idleAtClear else idleStopped
    let k1 :=
      { k with
        stow := enterStow new k.stow
        axes := { k.axes with az := idle k.axes.az, el := idle k.axes.el } }
    let k2 := request .urgent k1
    let k3 := if k.stow.state = .stowed then wakeEvent k2 else k2
    syncStowFailed k3

/-- The pin command becomes in and its timer starts (R56). -/
def drivePinIn (k : Core) : Core := { k with stow := { k.stow with pin := .drivenIn, pinTimer := some 0 } }

/-- The pin is in a defined position (R48). -/
def pinDefined (e : Env) (k : Core) : Bool :=
  (e.inputs.pinEngaged.taken = some true && !(e.inputs.pinRetracted.taken = some true) && inWindow k)
    || (e.inputs.pinRetracted.taken = some true && !(e.inputs.pinEngaged.taken = some true))

/-- The levels the stow unit last took of the pin inputs; not asserted before the first. -/
def pinEngaged (e : Env) : Bool := e.inputs.pinEngaged.taken = some true
def pinRetracted (e : Env) : Bool := e.inputs.pinRetracted.taken = some true

/-- The cause of PIN_FEEDBACK ends once the pin is in a defined position (R48). -/
def settlePinFeedback (e : Env) (k : Core) : Core := if pinDefined e k then endCond .pinFeedback k else k

/-- A pin fault: PIN_FEEDBACK goes ACTIVE and the stow state becomes FAILED (R54, R55, R56). -/
def pinFault (e : Env) (k : Core) : Core := settlePinFeedback e (setStow .failed (raiseCond .pinFeedback k))

end Sys2Proof.Machine
end

