-- ==== Sys2Proof/Machine/Heater.lean ====
section
/-! DEFINITION. The heater unit: zone targets and demands (R93, R94), an allowance applied (R96, R99), what is announced (R101). -/

namespace Sys2Proof.Machine

/-- Section D is installed, so that the heater unit works (R102). -/
def heaterRuns (e : Env) : Bool := e.setup.statusD = .installed

/-- The configured power of a zone. -/
def zonePower (e : Env) (z : Fin 4) : Nat := fourGet e.setup.secD.power z

/-- A zone is fitted (R88, R102); before section D is installed none counts as fitted, so that no feedback is watched
(log 52). -/
def fitted (e : Env) (z : Fin 4) : Bool := heaterRuns e && decide (1 ≤ zonePower e z)

/-- The cycle period P, in ms (R97). -/
def cyclePeriod (e : Env) : Nat := e.setup.secD.cycle * 1000

/-- A zone is held off (R94). -/
def heldOff (k : Core) (z : Fin 4) : Bool := isRaised k (.zoneSensor z) || isRaised k (.zoneFeedback z)

/-- The air temperature the zone target is formed with (R90, R93). -/
def airTemperature (k : Core) : Int :=
  if isActive k .ambientSensor then assumedFrost
  else
    match k.heat.ambient with
    | none => assumedFrost
    | some t => t

/-- The zone target (R93). -/
def zoneTarget (e : Env) (k : Core) : ZoneTarget :=
  match k.heat.mode with
  | .force => .melt
  | .off => .none
  | .auto =>
    if k.heat.wet ∧ airTemperature k ≤ wetTemperature then .melt
    else if running k.heat.memory ∧ airTemperature k ≤ e.setup.secD.frost then .melt
    else if airTemperature k ≤ e.setup.secD.frost then .antiIce
    else .none

/-- The demand duty of a zone whose surface reads tz, for a target temperature t (R94). -/
def demandDuty (e : Env) (t tz : Int) : Nat := min 1000 ((clampInt 0 400 (t - tz)).toNat * e.setup.secD.gain)

/-- The target temperature (R93). -/
def targetTemperature (e : Env) : ZoneTarget → Option Int
  | .none => none
  | .antiIce => some e.setup.secD.antiIce
  | .melt => some e.setup.secD.melt

/-- The demand duty of zone z (R94). -/
def zoneDemand (e : Env) (k : Core) (t : ZoneTarget) (z : Fin 4) : Nat :=
  if !fitted e z || heldOff k z then 0
  else
    match targetTemperature e t, (fourGet k.heat.zones z).reading with
    | some t, some tz => demandDuty e t tz
    | _, _ => 0

/-- The heater unit's record with the target, the demand duties and powers, and Q of an evaluation (R93, R94). -/
def formDemands (e : Env) (k : Core) : Heater :=
  let t := zoneTarget e k
  let zone (z : Fin 4) : Zone :=
    { fourGet k.heat.zones z with
      demand := zoneDemand e k t z, power := zoneDemand e k t z * zonePower e z / 1000 }
  let zs := fourOf zone
  { k.heat with
    target := t
    zones := zs
    demand :=
      if k.heat.mode = .off ∨ heatBlocked e.list then 0 else zs.z1.power + zs.z2.power + zs.z3.power + zs.z4.power }

/-- The scale for an allowance and a heater demand (R96). -/
def heaterScale (allowance q : Nat) : Nat := if q = 0 then 0 else min 1000 (allowance * 1000 / q)

/-- A new output duty of a zone: below the cycle duty it becomes the cycle duty at once, and the contactor goes off
where the phase has reached the new on-time (R99). -/
def lowerZone (period new : Nat) (z : Zone) : Zone :=
  if new < z.cycle then
    { z with output := new, cycle := new, on := z.on && decide (z.phase < new * period / 1000) }
  else { z with output := new }

/-- The announced heater load (R101). -/
def announcedLoad (e : Env) (zs : Four Zone) : Nat :=
  if heatBlocked e.list then 0
  else total (allFour.map fun z => if fitted e z then (fourGet zs z).output * zonePower e z / 1000 else 0)

/-- The heater unit applies the allowance the feeder account hands it (R95, R96, R99, R101). -/
def applyAllowance (e : Env) (k : Core) : Core :=
  let s := heaterScale k.fee.allowance k.heat.demand
  let zone (z : Fin 4) : Zone :=
    let zr := fourGet k.heat.zones z
    lowerZone (cyclePeriod e) (if fitted e z then zr.demand * s / 1000 else 0) zr
  let zs := fourOf zone
  { k with
    heat := { k.heat with scale := s, allowance := k.fee.allowance, zones := zs, load := announcedLoad e zs } }

end Sys2Proof.Machine
end

