-- ==== Sys2Proof/Machine/Feeder.lean ====
section
/-! DEFINITION. The feeder account: claims (8.2), drive total and headroom (8.3), ranking and admission (8.4), overcommit (8.5), heater pool and allowance (8.6). -/

namespace Sys2Proof.Machine

/-- Section C is installed: the account has a budget (R145). -/
def hasBudget (e : Env) : Bool := e.setup.statusC = .installed

/-- A sum that saturates at 65,535. -/
def satLoad (n : Nat) : Nat := min loadMax n

/-- The records with FEEDER relevance. -/
def feederMates (e : Env) : List Peer := e.peers.filter fun p => p.relFeeder

/-- The own drive load D_own (R144). -/
def ownLoad (f : Feeder) : Nat := if f.claim.state = .active then f.claim.amount else satLoad (f.loadAz + f.loadEl)

/-- The amount of a claim for an accelerating set (R141). -/
def claimAmount (e : Env) (k : Core) (az el : Bool) : Nat :=
  let derated := k.axes.derating || k.fee.claim.degraded
  satLoad ((if az then accelLoad e derated .az else k.axes.az.load)
    + (if el then accelLoad e derated .el else k.axes.el.load))

/-- The least of the own budget and the feeder mates' budgets (R145). -/
def effectiveBudget (e : Env) : Nat := (feederMates e).foldl (fun b p => min b p.budget) e.setup.secC.budget

/-- What a record adds to the peer drive load (R146). -/
def peerLoad (e : Env) (p : Peer) : Nat := p.load + if p.isFresh then 0 else e.setup.secC.stale

/-- The drive total (R146). -/
def driveTotal (e : Env) (f : Feeder) : Nat := satLoad (ownLoad f + satLoad (total ((feederMates e).map (peerLoad e))))

/-- The raw headroom (R147). -/
def rawHeadroom (e : Env) (f : Feeder) : Int :=
  (effectiveBudget e : Int) - (e.setup.secC.reserve : Int) - (driveTotal e f : Int)

/-- The own station number; without section A there is no peer to compare with. -/
def ownNumber (e : Env) : Nat :=
  match e.setup.secA with
  | none => 0
  | some a => a.station

/-- A record's WAITING claim comes before the own one in the waiting view (R149). -/
def ranksAhead (e : Env) (c : Claim) (p : Peer) : Bool :=
  p.claimState = .waiting
    && ((p.claimKind = .stow && !(c.kind = .stow))
      || (decide (p.claimKind = .stow ↔ c.kind = .stow)
        && (decide (c.announcedAge < p.waitAge) || (p.waitAge == c.announcedAge && decide (p.station < ownNumber e)))))

/-- The needs of the claims ranked ahead, summed (R149). -/
def needsAhead (e : Env) (c : Claim) : Nat :=
  satLoad (total (((feederMates e).filter (ranksAhead e c)).map fun p => p.need))

/-- The needs of every WAITING claim of a feeder mate (R158). -/
def needsWaiting (e : Env) : Nat :=
  satLoad (total (((feederMates e).filter fun p => p.claimState = .waiting).map fun p => p.need))

/-- The heater pool (R158). -/
def heaterPool (e : Env) (f : Feeder) : Nat :=
  (rawHeadroom e f - (if f.claim.state = .waiting then (f.claim.need : Int) else 0) - (needsWaiting e : Int)).toNat

/-- The feeder's heater demand (R159). -/
def feederDemand (e : Env) (f : Feeder) : Nat := satLoad (f.ownDemand + total ((feederMates e).map fun p => p.demand))

/-- The allowance for a pool (R159). -/
def allowanceFor (pool own all : Nat) : Nat :=
  if own = 0 then 0 else if all ≤ pool then own else pool * own / all

/-- Every axis of the accelerating set is ACTIVE (R151). -/
def setActive (k : Core) : Bool :=
  (!k.fee.claim.accAz || k.axes.az.state = .active) && (!k.fee.claim.accEl || k.axes.el.state = .active)

/-- The claim has settled (R150). -/
def claimSettled (e : Env) (c : Claim) : Bool :=
  match c.announced with
  | none => false
  | some t => decide (t + e.setup.secC.settle ≤ e.now)

/-- The five conditions of R151, on the figures of the last computation. -/
def mayAdmit (e : Env) (k : Core) : Bool :=
  claimSettled e k.fee.claim && setActive k && !(k.line.tx = .silent) && !running k.fee.fill
    && decide (k.fee.claim.need + k.fee.ahead ≤ k.fee.headroom)

/-- The stow wait limit in 100 ms units, as far as the wait age counts (R153). -/
def stowWaitUnits (e : Env) : Nat := min waitAgeMax (e.setup.secC.stowWait * 10)

/-- A STOW claim has waited to the limit with its axes ACTIVE (R153). -/
def mustForce (e : Env) (k : Core) : Bool :=
  k.fee.claim.kind = .stow && decide (stowWaitUnits e ≤ k.fee.claim.waitAge) && setActive k

/-- What the admission test answers: no admission, or an admission and whether it is forced (R151, R153). -/
def admissionTest (e : Env) (k : Core) : Option Bool :=
  if k.fee.claim.state = .waiting ∧ hasBudget e then
    if mayAdmit e k then some false else if mustForce e k then some true else none
  else none

/-- The claim enters ACTIVE (R154). -/
def admitClaim (forced : Bool) (k : Core) : Core :=
  let k1 := { k with fee := { k.fee with claim := { k.fee.claim with state := .active, forced := forced } } }
  let k2 := request .urgent k1
  let k3 := if forced then raiseCond .stowForced k2 else k2
  if k.fee.claim.kind = .stow ∧ k.stow.state = .demanded then setStow .moving k3 else k3

/-- A claim is degraded (R157). -/
def degradeClaim (e : Env) (k : Core) : Core :=
  let c := { k.fee.claim with degraded := true }
  let k1 := { k with fee := { k.fee with claim := c } }
  { k1 with fee := { k1.fee with claim := { c with amount := claimAmount e k1 c.accAz c.accEl } } }

/-- The overcommit test on the figures computed (R156), and whether it degraded the claim. -/
def overcommitTest (e : Env) (k : Core) : Core × Bool :=
  if k.fee.claim.state = .active ∧ k.fee.raw < 0 then
    let k1 := raiseCond .overload k
    if k.fee.claim.kind = .slew ∧ k.fee.claim.degraded = false then (degradeClaim e k1, true) else (k1, false)
  else (endCond .overload k, false)

/-- Steps 1, 2, 3 and 5 of a computation: the figures (R148). -/
def withFigures (e : Env) (k : Core) : Core :=
  { k with
    fee := { k.fee with
      effective := effectiveBudget e
      drive := driveTotal e k.fee
      raw := rawHeadroom e k.fee
      headroom := (rawHeadroom e k.fee).toNat
      ahead := needsAhead e k.fee.claim } }

/-- Steps 7 and 8: the pool and the allowance, handed to the heater unit (R158, R159). -/
def handAllowance (e : Env) (pool : Nat) (k : Core) : Core :=
  applyAllowance e
    { k with
      fee := { k.fee with pool := pool, allowance := allowanceFor pool k.fee.ownDemand (feederDemand e k.fee) } }

/-- One computation (R148), and whether it changed the claim, so that another follows. -/
def computePass (e : Env) (k : Core) : Core × Bool :=
  let k1 := withFigures e k
  let pool := heaterPool e k1.fee
  let (k2, degraded) := overcommitTest e k1
  match admissionTest e k2 with
  | some forced => (admitClaim forced (handAllowance e pool k2), true)
  | none => (handAllowance e pool k2, degraded)

/-- Computations until one leaves the claim as it is, at most n of them. -/
def computeTimes (e : Env) : Nat → Core → Core
  | 0, k => k
  | n + 1, k =>
    let (k', again) := computePass e k
    if again then computeTimes e n k' else k'

/-- The account computes (R148). An admission can be followed by one degradation and that by nothing, so three passes
always suffice. Without section C it does no more than R145 states: an allowance of 0. -/
def compute (e : Env) (k : Core) : Core :=
  if hasBudget e then computeTimes e 3 k else applyAllowance e { k with fee := { k.fee with allowance := 0 } }

/-- The admission test made alone, on the figures of the last computation (R151, R153). -/
def testAdmission (e : Env) (k : Core) : Core :=
  match admissionTest e k with
  | some forced => compute e (admitClaim forced k)
  | none => k

/-- The claim becomes NONE, by its end or its withdrawal (R143, R155), and the account computes. -/
def dropClaim (e : Env) (k : Core) : Core :=
  compute e (endCond .stowForced (request .urgent { k with fee := { k.fee with claim := noClaim } }))

/-- A withdrawal that leaves an ACTIVE claim to run to its end (R143). -/
def withdrawWaiting (e : Env) (k : Core) : Core := if k.fee.claim.state = .waiting then dropClaim e k else k

/-- A withdrawal whether WAITING or ACTIVE (R26, R143). -/
def withdrawClaim (e : Env) (k : Core) : Core := if k.fee.claim.state = .none then k else dropClaim e k

/-- The claim with its accelerating set, amount and need (R141). -/
def sizedClaim (e : Env) (k : Core) (az el : Bool) (c : Claim) : Claim :=
  { c with
    accAz := az
    accEl := el
    amount := claimAmount e k az el
    need := claimAmount e k az el - ownLoad k.fee }

/-- A new claim is WAITING: no frame in flight carries it yet (R140, R150). -/
def forgetClaim (f : Frame) : Frame := { f with present := false }

def raiseClaim (e : Env) (kind : ClaimKind) (az el : Bool) (k : Core) : Core :=
  let c := sizedClaim e k az el { noClaim with kind := kind, state := .waiting }
  compute e
    (request .urgent
      { k with
        fee := { k.fee with claim := c }
        line := { k.line with frame := k.line.frame.map forgetClaim } })

/-- A WAITING claim takes a new set, amount and need, keeping its wait age and announce time (R141). -/
def resizeClaim (e : Env) (kind : ClaimKind) (az el : Bool) (k : Core) : Core :=
  compute e { k with fee := { k.fee with claim := sizedClaim e k az el { k.fee.claim with kind := kind } } }

/-- An ACTIVE claim is converted, its amount and set kept (R140). -/
def convertClaim (e : Env) (kind : ClaimKind) (k : Core) : Core :=
  if k.fee.claim.kind = kind then k
  else compute e { k with fee := { k.fee with claim := { k.fee.claim with kind := kind } } }

/-- The kind a WAITING claim takes on a request: a STOW claim stays one (R140). -/
def waitingKind (old new : ClaimKind) : ClaimKind := if old = .stow then .stow else new

/-- A request of the axis controller or the stow unit, with its accelerating set (R140). -/
def requestClaim (e : Env) (kind : ClaimKind) (az el : Bool) (k : Core) : Core :=
  if !hasBudget e then k
  else if az || el then
    match k.fee.claim.state with
    | .none => raiseClaim e kind az el k
    | .waiting => resizeClaim e (waitingKind k.fee.claim.kind kind) az el k
    | .active => convertClaim e kind k
  else withdrawWaiting e k

/-- A start or end of derating while the claim waits (R141, R52): the set is found afresh; an empty one withdraws the
claim, and a DEMANDED stow goes on as MOVING. -/
def recomputeClaim (e : Env) (k : Core) : Core :=
  if k.fee.claim.state = .waiting then
    let az := mustAccelerate e k .az
    let el := mustAccelerate e k .el
    if az || el then resizeClaim e k.fee.claim.kind az el k
    else
      let k1 := dropClaim e k
      if k1.stow.state = .demanded then setStow .moving k1 else k1
  else k

/-- A new evaluation of targets and demands (R95): Q is handed to the account when it differs from the Q last handed
over, and the account's allowance, or the one last received, is applied. -/
def evaluateHeat (e : Env) (k : Core) : Core :=
  if heaterRuns e then
    let k1 := { k with heat := formDemands e k }
    if k1.heat.demand = k1.fee.ownDemand then applyAllowance e k1
    else compute e { k1 with fee := { k1.fee with ownDemand := k1.heat.demand } }
  else k

end Sys2Proof.Machine
end

