-- ==== Sys2Proof/Machine/AxisOps.lean ====
section
/-! DEFINITION. What the axis controller does to an axis: releases, targets, stopping, faults (chapters 1.2 and 1.5), and the lockouts' effects on the axes (R26). -/

namespace Sys2Proof.Machine

/-- The cause of AZ_RANGE ends when the azimuth axis takes a new target or leaves ACTIVE (R9). -/
def endRange (i : Axis) (k : Core) : Core :=
  match i with
  | .az => endCond .azRange k
  | .el => k

/-- A release is prohibited (R2); while axis processing is suspended it waits as well (R27; log 16). -/
def releaseProhibited (e : Env) (k : Core) : Bool :=
  !e.wind.gustValid || blocking e.list || posture e k = .config || !(k.stow.park = .run)

/-- A release pending mark is cleared with its target. -/
def clearPending (i : Axis) (k : Core) : Core :=
  let r := getAxis k i
  if r.releasePending then putAxis k i { r with releasePending := false, target := .none } else k

/-- An axis in UNBRAKING or ACTIVE takes a HOLD target at its present profile position, and its idle-brake timer
restarts (R24, R8). -/
def takeHold (i : Axis) (k : Core) : Core :=
  let r := getAxis k i
  if isMoving r then
    endRange i
      (putAxis k i
        { r with target := .hold r.x, idleTimer := if r.state = .active then newIdleTimer k else none })
  else k

/-- Entry to STOPPING (R4) from UNBRAKING or ACTIVE; with v at 0 the brake is de-energised at once. -/
def enterStopping (i : Axis) (k : Core) : Core :=
  let r := getAxis k i
  if isMoving r then
    endRange i
      (putAxis k i
        { r with
          state := .stopping, target := .none, idleTimer := none, engaging := decide (r.v = 0),
          brakeTimer := if r.v = 0 then some 0 else none, brakeSeen := false })
  else k

/-- The record of an axis on entry to FAULT (R5). -/
def faultedAxis (r : AxisRec) : AxisRec :=
  { r with
    state := .fault, engaging := false, target := .none, x := readingOf r, v := 0, carry := 0,
    lastDemand := readingOf r, phase := .rest, load := 0, releasePending := false, followTimer := 0,
    brakeTimer := none, idleTimer := none, mismatchTimer := 0, fresh := false, duty := 500 }

/-- What the fault of axis i does to the other axis's HOLD and to the stow state (R5, R57, R61; log 17). -/
def stowAxisFault (i : Axis) (k : Core) : Core :=
  match k.stow.state with
  | .clear => if isPointing (getAxis k (otherAxis i)) then takeHold (otherAxis i) k else k
  | .demanded | .moving => setStow .failed (takeHold (otherAxis i) k)
  | .releasing => setStow .pinning k
  | _ => k

/-- An axis enters FAULT from any other state; in every stow state the other axis's release pending mark goes with its
target, and a WAITING claim is withdrawn (R5). -/
def faultAxis (e : Env) (i : Axis) (k : Core) : Core :=
  if (getAxis k i).state = .fault then k
  else
    let k1 := endRange i (putAxis k i (faultedAxis (getAxis k i)))
    syncStowFailed (withdrawWaiting e (clearPending (otherAxis i) (stowAxisFault i k1)))

/-- Entry to UNBRAKING with a target (R3); an amplifier fault asserted at that moment faults the axis (R17). -/
def enterUnbraking (e : Env) (i : Axis) (t : Target) (k : Core) : Core :=
  let r := getAxis k i
  let k1 :=
    putAxis k i
      { r with state := .unbraking, target := t, releasePending := false, brakeTimer := some 0, brakeSeen := false }
  if e.inputs.ampFault then faultAxis e i k1 else k1

/-- A release request of a BRAKED axis (R2). -/
def requestRelease (e : Env) (i : Axis) (t : Target) (k : Core) : Core :=
  if releaseProhibited e k then putAxis k i { getAxis k i with target := t, releasePending := true }
  else enterUnbraking e i t k

/-- An axis enters ACTIVE with a target (R3, R4): the follow timer returns to 0, and a HOLD target starts the idle-brake
timer (R8). -/
def activeWith (k : Core) (r : AxisRec) (t : Target) (isFirst : Bool) : AxisRec :=
  { r with
    state := .active, engaging := false, target := t, releasePending := false, brakeTimer := none, followTimer := 0,
    fresh := isFirst, idleTimer := if isHolding { r with target := t } then newIdleTimer k else none }

/-- A new target of POINT or of the stow unit, taken by the axis's state (R2, R3, R4, R23). -/
def giveTarget (e : Env) (i : Axis) (t : Target) (k : Core) : Core :=
  let r := getAxis k i
  let k0 := endRange i k
  match r.state with
  | .braked => requestRelease e i t k0
  | .unbraking => putAxis k0 i { r with target := t }
  | .active =>
    putAxis k0 i { r with target := t, idleTimer := if isHolding { r with target := t } then newIdleTimer k else none }
  | .stopping =>
    if r.engaging || releaseProhibited e k then putAxis k0 i { r with target := t, releasePending := true }
    else putAxis k0 i (activeWith k r t false)
  | .fault => k0

/-- A pending release begins when no prohibition remains (R2). -/
def tryRelease (e : Env) (i : Axis) (k : Core) : Core :=
  let r := getAxis k i
  if r.state = .braked ∧ r.releasePending ∧ releaseProhibited e k = false then enterUnbraking e i r.target k else k

/-- Both axes' pending releases, azimuth first: R2 and R17 give two that begin in one step no order (DESIGN CHOICE,
log 59). -/
def tryReleases (e : Env) (k : Core) : Core := tryRelease e .el (tryRelease e .az k)

/-- An axis that a prohibition or the suspension of axis processing leaves at rest resumes from its encoder reading
(R27). -/
def resumeAxis (r : AxisRec) : AxisRec :=
  { r with x := readingOf r, lastDemand := readingOf r, v := 0, carry := 0 }

/-- The arrival of a blocking record, as it acts on the axes (R26). -/
def stopForLockout (e : Env) (k : Core) : Core :=
  let k1 := enterStopping .el (enterStopping .az k)
  withdrawClaim e (clearPending .el (clearPending .az k1))

/-- The arrival of a POINT record while the stow state is CLEAR, as it acts on the axes (R26). -/
def holdForLockout (e : Env) (k : Core) : Core :=
  let h (i : Axis) (k : Core) : Core := if isPointing (getAxis k i) then takeHold i k else k
  withdrawWaiting e (clearPending .el (clearPending .az (h .el (h .az k))))

/-- The brake contactor of an axis is energised (axis state summary of 1.2). -/
def brakeEnergised (r : AxisRec) : Bool :=
  match r.state with
  | .unbraking | .active => true
  | .stopping => !r.engaging
  | _ => false

/-- The amplifier of an axis is enabled (axis state summary of 1.2). -/
def ampEnabled (r : AxisRec) : Bool :=
  match r.state with
  | .unbraking | .active | .stopping => true
  | _ => false

/-- The limit switch inputs of an axis: some switch is active (R17). -/
def limitActive (e : Env) : Axis → Bool
  | .az => e.inputs.azLow || e.inputs.azHigh
  | .el => e.inputs.elLow || e.inputs.elHigh

/-- The brake feedback of an axis at the last counted sample: released. -/
def brakeReleased (e : Env) : Axis → Bool
  | .az => e.inputs.azReleased
  | .el => e.inputs.elReleased

/-- What keeps an axis in FAULT (R6): a limit switch, the amplifier fault input (in PARKED at the level it had before,
log 64), the encoder fault cause, or brake feedback that disagrees with the output, tested on the feedback as stored even where
the comparing element is stuck (DESIGN CHOICE, log 69). -/
def faultRemains (e : Env) (i : Axis) (k : Core) : Bool :=
  limitActive e i || e.inputs.ampFault || (getAxis k i).encoderFault
    || brakeReleased e i != brakeEnergised (getAxis k i)

/-- CLEAR of the DRIVE class: an axis in FAULT without a remaining cause returns to BRAKED (R6). -/
def returnAxis (e : Env) (i : Axis) (k : Core) : Core :=
  let r := getAxis k i
  if r.state = .fault ∧ faultRemains e i k = false then
    syncStowFailed (putAxis k i { r with state := .braked, target := .none, x := readingOf r })
  else k

end Sys2Proof.Machine
end

