-- ==== Sys2Proof/Machine/StowOps.lean ====
section
/-! DEFINITION. The stow unit: causes (3.3), going to stow (3.4), pinning (3.5), leaving stow (3.6), lockouts and re-evaluation (3.7), waking (3.9). -/

namespace Sys2Proof.Machine

/-! ## Going to stow (R51 to R53) -/

/-- The azimuth axis on entry to DEMANDED: a moving axis holds where it is, a pending release is cleared (R51; log 18). -/
def stowAzimuth (k : Core) : Core := clearPending .az (takeHold .az k)

/-- The elevation axis on entry to DEMANDED (R51). -/
def stowElevation (e : Env) (k : Core) : Core :=
  if k.axes.el.state = .braked ∧ inWindow k then clearPending .el k else giveTarget e .el (.slew stowAngle) k

/-- The claim on entry to DEMANDED, and the passage to MOVING where nothing has to be waited for (R52). -/
def stowClaim (e : Env) (k : Core) : Core :=
  let az := mustAccelerate e k .az
  let el := mustAccelerate e k .el
  let k1 := requestClaim e .stow az el k
  if k1.stow.state = .demanded ∧ (k1.fee.claim.state = .active ∨ (az || el) = false) then setStow .moving k1 else k1

/-- Entry to DEMANDED (R51, R52). An axis that faults at its release has already made the state FAILED. -/
def enterDemanded (e : Env) (k : Core) : Core :=
  let k1 := stowElevation e (stowAzimuth (setStow .demanded k))
  if k1.stow.state = .demanded then stowClaim e k1 else k1

/-- A non-empty cause set in CLEAR (R51). -/
def demandStow (e : Env) (k : Core) : Core :=
  if blocking e.list then setStow .blocked k
  else if someFault k then setStow .failed k
  else enterDemanded e k

/-- The elevation has arrived at stow (R53). -/
def arrived (k : Core) : Bool :=
  inWindow k && (k.axes.el.state = .braked || (k.axes.el.state = .active && decide (k.axes.el.v = 0)))

/-- The arrival test of a control interval (R53). -/
def arrivalTest (e : Env) (k : Core) : Core :=
  if (k.stow.state = .demanded ∨ k.stow.state = .moving) ∧ arrived k then withdrawWaiting e (setStow .pinning k) else k

/-! ## Pinning, STOWED and leaving it (R54 to R56) -/

/-- Entry to STOWED: a stop request to each axis in UNBRAKING or ACTIVE (R55). -/
def enterStowed (k : Core) : Core := enterStopping .el (enterStopping .az (setStow .stowed k))

/-- The elevation axis is ACTIVE in RELEASING: the pin is driven in (R56). -/
def driveInTest (k : Core) : Core :=
  if k.stow.state = .releasing ∧ k.stow.pin = .off ∧ k.axes.el.state = .active then drivePinIn k else k

/-- Entry to RELEASING: both axes take HOLD at their profile positions, BRAKED ones are released (R56). -/
def enterReleasing (e : Env) (k : Core) : Core :=
  let k1 := setStow .releasing k
  let k2 := giveTarget e .az (.hold k1.axes.az.x) k1
  driveInTest (giveTarget e .el (.hold k2.axes.el.x) k2)

/-- The pin tests of PINNING, STOWED and RELEASING, on the levels taken and the last elevation reading (R54 to R56). -/
def pinTests (e : Env) (k : Core) : Core :=
  match k.stow.state with
  | .pinning =>
    if pinEngaged e then if !pinRetracted e && inWindow k then enterStowed k else pinFault e k else k
  | .stowed =>
    if !pinEngaged e then setStow (if blocking e.list then .blocked else .pinning) k
    else if inWindow k then k else pinFault e k
  | .releasing =>
    if pinRetracted e then if pinEngaged e then pinFault e k else setStow .clear k else k
  | _ => k

/-- The pin timer expires in PINNING or RELEASING (R54, R56). -/
def pinExpiry (e : Env) (k : Core) : Core :=
  if (k.stow.state = .pinning ∨ k.stow.state = .releasing) ∧ expired k.stow.pinTimer (e.setup.secB.pinLimit * 1000) then
    pinFault e k
  else k

/-! ## Lockouts and re-evaluation (R58 to R62) -/

/-- The pin is retracted: pin-retracted asserted, pin-engaged not. -/
def pinIsIn (e : Env) : Bool := pinRetracted e && !pinEngaged e

/-- The arrival of a blocking record (R58). -/
def blockStow (k : Core) : Core :=
  match k.stow.state with
  | .demanded | .moving | .pinning | .releasing => setStow .blocked k
  | _ => k

/-- An ACTIVE elevation axis takes a HOLD target at its profile position (R60). -/
def holdElevation (k : Core) : Core := if k.axes.el.state = .active then takeHold .el k else k

/-- Re-evaluation: the first case of R60 that applies. -/
def reevaluate (e : Env) (k : Core) : Core :=
  if blocking e.list then setStow .blocked k
  else if pinEngaged e && !pinRetracted e && inWindow k then enterStowed k
  else if !pinIsIn e then holdElevation (setStow .pinning k)
  else if k.stow.causes = noCauses then setStow .clear k
  else if someFault k then setStow .failed k
  else enterDemanded e k

/-- A change of the lockout list that leaves no blocking record, reaching BLOCKED (R59). -/
def unblockStow (e : Env) (k : Core) : Core :=
  if k.stow.state = .blocked ∧ blocking e.list = false then reevaluate e k else k

/-! ## Causes and the release hold (R49, R50) -/

/-- A wind cause is present. -/
def windPresent (c : Causes) : Bool := c.windLocal || c.windPeers || c.blind

/-- An update adds a cause. -/
def addsCause (old new : Causes) : Bool :=
  (new.windLocal && !old.windLocal) || (new.windPeers && !old.windPeers) || (new.blind && !old.blind)
    || (new.isolation && !old.isolation) || (new.console && !old.console)

/-- The release hold timer after an update (R50). -/
def holdAfter (old new : Causes) (t : Option Nat) : Option Nat :=
  if windPresent new then none else if windPresent old then some 0 else t

/-- The stow unit holding a new cause set: the release hold timer and the pending release follow (R50, R67). -/
def withCauses (new : Causes) (u : StowUnit) : StowUnit :=
  { u with
    causes := new
    holdTimer := holdAfter u.causes new u.holdTimer
    pendingRelease := u.pendingRelease && !addsCause u.causes new }

/-- The stow state takes an update that has changed the set (R51, R57, R59). -/
def takeCauses (e : Env) (old : Causes) (k : Core) : Core :=
  match k.stow.state with
  | .clear => if k.stow.causes = noCauses then k else demandStow e k
  | .releasing => if addsCause old k.stow.causes then setStow .pinning k else k
  | .blocked => if k.stow.causes = noCauses ∧ pinIsIn e then setStow .clear k else k
  | _ => k

/-- One update of the cause set (R49). Before the stow state is derived it changes the set alone (R47). -/
def updateCauses (e : Env) (new : Causes) (k : Core) : Core :=
  if new = k.stow.causes then k
  else
    let k1 := { k with stow := withCauses new k.stow }
    if e.setup.configured then takeCauses e k.stow.causes k1 else k1

/-! ## UNSTOW (R63, R64) -/

/-- The result of an UNSTOW order (R63): the first test that holds refuses it, or it has nothing to do in CLEAR. -/
def unstowTest (e : Env) (k : Core) : Code :=
  if k.stow.state = .clear then .done
  else if !({ k.stow.causes with console := false } = noCauses) then .cause
  else if running k.stow.holdTimer then .holding
  else if k.stow.state = .stowed && blocking e.list then .locked
  else if (k.stow.state = .stowed || k.stow.state = .pinning) && someFault k then .fault
  else .done

/-- A stow given up in DEMANDED or MOVING (R64). -/
def abandonStow (e : Env) (k : Core) : Core :=
  withdrawWaiting e (clearPending .el (clearPending .az (takeHold .el (takeHold .az (setStow .clear k)))))

/-- An accepted UNSTOW once CONSOLE has been removed, by stow state (R64). -/
def actUnstow (e : Env) (k : Core) : Core :=
  match k.stow.state with
  | .demanded | .moving => abandonStow e k
  | .pinning => enterReleasing e k
  | .stowed =>
    if k.stow.park = .run then enterReleasing e k else { k with stow := { k.stow with pendingRelease := true } }
  | .blocked => if k.stow.causes = noCauses ∧ pinIsIn e then setStow .clear k else k
  | _ => k

/-- CONSOLE removed without the state taking the update: UNSTOW's own rule says what the state does (R64). -/
def dropConsole (k : Core) : Core :=
  { k with stow := withCauses { k.stow.causes with console := false } k.stow }

/-! ## Parking and waking (R27, R65 to R67) -/

/-- QUIET is accepted: posture STOWED with both axes BRAKED (R65). -/
def mayPark (e : Env) (k : Core) : Bool :=
  posture e k = .stowed && k.axes.az.state = .braked && k.axes.el.state = .braked

/-- The checks of a pending release at the end of the settle time (R67). -/
def mayRelease (e : Env) (k : Core) : Bool :=
  k.stow.causes = noCauses && !blocking e.list && !someFault k

/-- The station resumes axis processing with both axes at their readings (R27). -/
def resumeAxes (k : Core) : Core :=
  { k with axes := { k.axes with az := resumeAxis k.axes.az, el := resumeAxis k.axes.el } }

/-- The end of the wake settle time (R27, R66, R67). -/
def endSettle (e : Env) (k : Core) : Core :=
  if k.stow.park = .waking ∧ expired k.stow.settleTimer e.setup.secB.wakeSettle then
    let k1 :=
      resumeAxes
        { k with stow := { k.stow with park := .run, settleTimer := none, pendingRelease := false } }
    let k2 := if k.stow.pendingRelease && mayRelease e k then enterReleasing e k1 else k1
    tryReleases e k2
  else k

/-- The release hold timer reaches the release hold (R50). -/
def endHold (e : Env) (k : Core) : Core :=
  if expired k.stow.holdTimer (e.setup.secC.releaseHold * 60000) then { k with stow := { k.stow with holdTimer := none } }
  else k

end Sys2Proof.Machine
end

