-- ==== Sys2Proof/Machine/Lockouts.lean ====
section
/-! DEFINITION. The lockout list and its retained store: changes of the list and what they hand on (4.1), key, console and system records (4.2 to 4.4), record writes (4.5), the warm rebuild (4.6). -/

namespace Sys2Proof.Machine

/-! ## Identities and marks (R79) -/

/-- The record identity of a write: a key, the system, or a console with its kind (R79). -/
def identOf (k : LockKind) : Origin → Ident
  | .key n => .key n
  | .system => .system
  | .console c => .console k c

def lockIdent (l : Lock) : Ident := identOf l.kind l.origin
def markIdent (m : Mark) : Ident := identOf m.kind m.origin

/-- The mark that a change of a record sets. -/
def markOf (l : Lock) : Mark := { kind := l.kind, origin := l.origin }

def isConsoleOrigin : Origin → Bool
  | .console _ => true
  | _ => false

def isConsoleIdent : Ident → Bool
  | .console _ _ => true
  | _ => false

/-! ## The list (R69) -/

/-- A record as it is placed: HELD, age 0. -/
def newLock (k : LockKind) (o : Origin) : Lock := { kind := k, origin := o, age := 0, sub := 0, uncertain := false }

/-- A record with its state made HELD, its age kept. -/
def settleLock (l : Lock) : Lock := { l with uncertain := false }

/-- The list with the records of one identity made HELD. -/
def settleIdent (i : Ident) (ls : List Lock) : List Lock := ls.map fun l => if lockIdent l = i then settleLock l else l

/-- The list without the record of an identity. -/
def dropIdent (i : Ident) (ls : List Lock) : List Lock := ls.filter fun l => !(lockIdent l = i)

/-- The record of an identity. -/
def findIdent (i : Ident) (ls : List Lock) : Option Lock := ls.find? fun l => lockIdent l = i

/-- The list with an origin that owns one record, a key or the system, holding a HELD record of a kind: placed, settled,
rewritten as the newest, or left as it is (R73, R77, R84). -/
def putOwned (k : LockKind) (o : Origin) (ls : List Lock) : List Lock :=
  match findIdent (identOf k o) ls with
  | none => ls ++ [newLock k o]
  | some r =>
    if r.kind = k then settleIdent (identOf k o) ls else dropIdent (identOf k o) ls ++ [newLock k o]

/-! ## Record writes (R79, R80) -/

/-- What a write stores: the list's present content for its identity, or its absence. A record the store holds from the
same placement keeps its place, another joins at the end (log 19). -/
def writeContent (ls : List Lock) (i : Ident) (stored : List Lock) : List Lock :=
  match findIdent i ls with
  | none => dropIdent i stored
  | some l =>
    if stored.any fun r => lockIdent r = i ∧ r.kind = l.kind ∧ r.age = l.age ∧ r.sub = l.sub then
      stored.map fun r => if lockIdent r = i then l else r
    else dropIdent i stored ++ [l]

/-- The next waiting write begins when none is in progress. -/
def beginWrite (ls : List Lock) (st : Store) : Store :=
  match st.writing, st.queue with
  | none, i :: rest => { st with records := writeContent ls i st.records, queue := rest, writing := some (i, 0) }
  | _, _ => st

/-- Sets an open mark, in the room of the identity's earlier one. -/
def openMark (m : Mark) (ms : List Mark) : List Mark := (ms.filter fun x => !(markIdent x = markIdent m)) ++ [m]

/-- A change joins its identity's waiting write or waits at the tail. -/
def enqueue (i : Ident) (q : List Ident) : List Ident := if q.contains i then q else q ++ [i]

/-- A change is taken: its open mark is set and its write waits, or begins (R79). -/
def takeChange (ls : List Lock) (m : Mark) (st : Store) : Store :=
  beginWrite ls { st with marks := openMark m st.marks, queue := enqueue (markIdent m) st.queue }

/-- Several changes, in order. -/
def takeChanges (ls : List Lock) (ms : List Mark) (st : Store) : Store := ms.foldl (fun st m => takeChange ls m st) st

/-- The write in progress has taken its 2 ms: its open mark is cleared unless a later change of the identity waits, and
the next write begins (R79). -/
def endWrite (ls : List Lock) (st : Store) : Store :=
  match st.writing with
  | none => st
  | some (i, t) =>
    if writeMs ≤ t then
      beginWrite ls
        { st with
          writing := none
          emptying := false
          marks := if st.queue.contains i then st.marks else st.marks.filter fun m => !(markIdent m = i) }
    else st

/-- The identities whose writes have not ended. -/
def unwritten (st : Store) : List Ident :=
  match st.writing with
  | none => st.queue
  | some (i, _) => if st.queue.contains i then st.queue else st.queue ++ [i]

/-- The console records that count for the quota: those held, and the removals not yet written (R74). -/
def consoleCount (ls : List Lock) (st : Store) : Nat :=
  (ls.filter fun l => isConsoleOrigin l.origin).length
    + ((unwritten st).filter fun i => isConsoleIdent i && (findIdent i ls).isNone).length

/-- New console entries would take the waiting console writes beyond their places (R80). -/
def queueRefuses (is : List Ident) (st : Store) : Bool :=
  decide (consoleQueueMax
    < (st.queue.filter isConsoleIdent).length + (is.filter fun i => !st.queue.contains i).length)

/-! ## What a change hands on (R70) -/

/-- A record that stands in the new list and not in the old one, satisfying a test. -/
def arrives (f : Lock → Bool) (old new : List Lock) : Bool := new.any fun l => f l && !old.contains l

/-- A record of kind POINT that is HELD. -/
def isPointLock (l : Lock) : Bool := !l.uncertain && l.kind = .point

/-- A change of the list reaches the axis controller, the stow unit, the heater unit and the line port (R70). -/
def handList (old : List Lock) (e : Env) (k : Core) : Core :=
  let k1 := if arrives isBlocking old e.list then stopForLockout e k else k
  let k2 := if arrives isPointLock old e.list ∧ k1.stow.state = .clear then holdForLockout e k1 else k1
  let k3 := if blocking e.list then blockStow k2 else unblockStow e k2
  let k4 := evaluateHeat e (wakeEvent k3)
  let k5 := if announcedKinds old = announcedKinds e.list then k4 else request .urgent k4
  tryReleases e k5

/-- The list becomes another list by changes whose marks are given; the same list again is no change. -/
def changeList (new : List Lock) (ms : List Mark) (s : State) : State :=
  if new = s.env.list then s
  else
    let e := { s.env with list := new }
    { s with env := e, store := takeChanges new ms s.store, core := handList s.env.list e s.core }

/-- The record of an origin that owns one is given a kind (R73, R77, R84). -/
def setOwned (k : LockKind) (o : Origin) (s : State) : State :=
  changeList (putOwned k o s.env.list) [{ kind := k, origin := o }] s

/-- The record of an identity is removed. -/
def removeIdent (i : Ident) (s : State) : State :=
  match findIdent i s.env.list with
  | none => s
  | some l => changeList (dropIdent i s.env.list) [markOf l] s

/-! ## Keys (R72, R73) -/

/-- A key's activity for a level of its input (R72). -/
def keyActive (sense : KeySense) (high : Bool) : Bool :=
  match sense with
  | .disabled => false
  | .activeHigh => high
  | .activeLow => !high

/-- The list with a key taken as active or inactive (R73). -/
def settleKey (n : Fin 4) (k : LockKind) (active : Bool) (s : State) : State :=
  if active then setOwned k (.key n) s else removeIdent (.key n) s

/-- A key input has shown one activity for 50 ms: it is taken (R72, R73, R82). -/
def takeKey (n : Fin 4) (s : State) : State :=
  match s.env.setup.secA with
  | none => s
  | some a =>
    let f := fourGet s.env.inputs.keys n
    if filterReady pinFilterMs f then
      let i := { s.env.inputs with keys := fourSet s.env.inputs.keys n { f with taken := some f.level } }
      settleKey n (fourGet a.keys n).kind f.level { s with env := { s.env with inputs := i } }
    else s

/-! ## Console records (R74, R75) -/

/-- LOCK of a kind from a console: the first test of R74 that holds decides. -/
def lockOrder (k : LockKind) (c : Nat) (s : State) : State × Code :=
  let i := Ident.console k c
  match findIdent i s.env.list with
  | some l =>
    if l.uncertain then (changeList (settleIdent i s.env.list) [markOf l] s, .done) else (s, .done)
  | none =>
    if consoleMax ≤ consoleCount s.env.list s.store then (s, .full)
    else if queueRefuses [i] s.store then (s, .busy)
    else (changeList (s.env.list ++ [newLock k (.console c)]) [{ kind := k, origin := .console c }] s, .done)

/-- The two records that an UNLOCK acts on: the HELD one of the kind, and the console's oldest UNCERTAIN one (R75). Their
removals are taken in this order, which the spec leaves open (log 50). -/
def unlockTargets (k : LockKind) (c : Nat) (ls : List Lock) : List Lock :=
  (ls.find? fun l => l.origin = .console c && l.kind = k && !l.uncertain).toList
    ++ (ls.find? fun l => l.origin = .console c && l.uncertain).toList

/-- Another console holds a record of the kind, in either state (R75). -/
def otherHolds (k : LockKind) (c : Nat) (ls : List Lock) : Bool :=
  ls.any fun l => isConsoleOrigin l.origin && !(l.origin = .console c) && l.kind = k

/-- UNLOCK of a kind from a console (R75). -/
def unlockOrder (k : LockKind) (c : Nat) (s : State) : State × Code :=
  let ts := unlockTargets k c s.env.list
  if ts = [] then (s, if otherHolds k c s.env.list then .owner else .done)
  else if queueRefuses (ts.map lockIdent) s.store then (s, .busy)
  else (changeList (s.env.list.filter fun l => !ts.contains l) (ts.map markOf) s, .done)

/-- RELEASE: the cold record is removed (R76). -/
def releaseOrder (s : State) : State × Code :=
  match systemRecord s.env.list with
  | none => (s, .done)
  | some l => if l.kind = .all then (s, .state) else (removeIdent .system s, .done)

/-! ## The start: store test and rebuild (R78, R81) -/

/-- Records of some kind of origin. -/
def countOrigin (f : Origin → Bool) (ls : List Lock) : Nat := (ls.filter fun l => f l.origin).length

/-- A record's origin and age are in range (R69). -/
def lockInRange (l : Lock) : Bool :=
  decide (l.age ≤ ageMax) && match l.origin with
    | .console c => inRange 224 239 c
    | _ => true

/-- The limits of R69. -/
def limitsGood (ls : List Lock) : Bool :=
  decide (ls.length ≤ listMax) && decide ((ls.map fun l => (l.kind, l.origin)).Nodup)
    && allFour.all (fun n => decide (countOrigin (fun o => o = .key n) ls ≤ 1))
    && decide (countOrigin (fun o => o = .system) ls ≤ 1) && decide (countOrigin isConsoleOrigin ls ≤ consoleMax)

/-- The test of the retained store that makes a start a warm one (R78). -/
def storeGood (st : Store) : Bool := st.valid && st.records.all lockInRange && limitsGood st.records

/-- One open mark of the store makes its identity's record UNCERTAIN, in its place or at the end (R81). -/
def rebuildMark (ls : List Lock) (m : Mark) : List Lock :=
  if ls.any fun l => lockIdent l = markIdent m then
    ls.map fun l => if lockIdent l = markIdent m then { l with kind := m.kind, uncertain := true } else l
  else ls ++ [{ newLock m.kind m.origin with uncertain := true }]

/-- The list rebuilt from the store at a warm start (R81). -/
def rebuildList (st : Store) : List Lock := st.marks.foldl rebuildMark st.records

/-- The store after a warm start: the marks cleared, and each UNCERTAIN record written (R81; log 20). -/
def storeAfterRebuild (ls : List Lock) (st : Store) : Store :=
  takeChanges ls ((ls.filter fun l => l.uncertain).map markOf)
    { st with emptying := false, marks := [], queue := [], writing := none, heatOld := none, consoleOld := none }

/-! ## The two items written outside the queue (R78) -/

/-- The heat mode and the CONSOLE presence are written when they change; what they replace is remembered until the next
change or a reset, because R78 gives these writes no time to finish in (DESIGN CHOICE, log 62). -/
def syncStore (k : Core) (st : Store) : Store :=
  let st1 := if k.heat.mode = st.heat then st else { st with heat := k.heat.mode, heatOld := some st.heat }
  if k.stow.causes.console = st1.console then st1
  else { st1 with console := k.stow.causes.console, consoleOld := some st1.console }

/-- A reset stops the writes: the open marks stay, a write of one of the two items that its operand calls
unfinished, however long ago it began (log 62), leaves what it was to replace, and an unfinished emptying leaves the marker invalid (R78, R81, R183; log 33). -/
def cutWrites (cuts : ItemCuts) (cutEmptying : Bool) (st : Store) : Store :=
  { st with
    valid := st.valid && !(cutEmptying && st.emptying)
    emptying := false
    heat := if cuts.heat then st.heatOld.getD st.heat else st.heat
    heatOld := none
    console := if cuts.console then st.consoleOld.getD st.console else st.console
    consoleOld := none
    queue := []
    writing := none }

end Sys2Proof.Machine
end

