-- ==== Sys2Proof/Machine/Line.lean ====
section
/-! DEFINITION. The line port: transmitter (6.2), receipt and noise (6.3), duplicate numbers (6.4), isolation (6.5), beacon timing and content (6.6, 6.7). -/

namespace Sys2Proof.Machine

/-! ## Beacon content (R121) -/

/-- The configuration fault flag and its fellows, as the flags byte's bits (12.2). -/
def flagBits (e : Env) (k : Core) : BitVec 5 :=
  BitVec.ofBool k.axes.derating ++ BitVec.ofBool k.axes.onSource
    ++ BitVec.ofBool (e.wind.proof.isSome || k.cond.proof.isSome) ++ BitVec.ofBool (systemAll e.list)
    ++ BitVec.ofBool (coldHeld e.list)

/-- An encoder reading in mdeg as the beacon carries it (R16, R121); one outside the field's signed 24 bits wraps, which the
spec leaves open (log 57). -/
def readingBits (r : AxisRec) : BitVec 24 := BitVec.ofInt 24 (readingOf r / 1000)

/-- The own budget as announced (R121, R145). -/
def announcedBudget (e : Env) : Nat := if hasBudget e then e.setup.secC.budget else noBudget

/-- The drive load as announced (R144, R145). -/
def announcedDrive (e : Env) (k : Core) : Nat := if hasBudget e then ownLoad k.fee else 0

/-- The need as announced: 0 unless the claim is WAITING (R160). -/
def announcedNeed (k : Core) : Nat := if k.fee.claim.state = .waiting then k.fee.claim.need else 0

/-- The fields of the beacon as the blocks hold them now (R121). -/
def beaconOf (e : Env) (a : SecA) (slot : ResultSlot) (k : Core) : Beacon :=
  { exponent := BitVec.ofNat 4 (exponentInForce e k)
    posture := postureCode (posture e k)
    feeder := BitVec.ofNat 4 a.feeder
    subarray := BitVec.ofNat 4 a.subarray
    budget := BitVec.ofNat 16 (announcedBudget e)
    flags := flagBits e k
    load := BitVec.ofNat 16 (announcedDrive e k)
    claimKind := claimKindCode k.fee.claim.kind
    claimState := claimStateCode k.fee.claim.state
    need := BitVec.ofNat 16 (announcedNeed k)
    waitAge := BitVec.ofNat 8 k.fee.claim.waitAge
    demand := BitVec.ofNat 16 k.heat.demand
    heaterLoad := BitVec.ofNat 16 k.heat.load
    gust := BitVec.ofNat 16 (if e.wind.gustValid then e.wind.gust else 0)
    mean := BitVec.ofNat 16 (if e.wind.meanValid then e.wind.mean else 0)
    vote := voteCode e.wind.vote
    stowState := stowStateCode k.stow.state
    causes := causeBits k.stow.causes
    kinds := announcedKinds e.list
    azimuth := readingBits k.axes.az
    elevation := readingBits k.axes.el
    tag := slot.tag
    console := slot.console
    code := resultCode slot.code
    summary := k.cond.summary
    notices := k.cond.notices }

/-- The arbitration word of an own beacon (R104). -/
def ownWord (a : SecA) (p : Priority) : BitVec 15 :=
  arbitrationWord (priorityCode p) (BitVec.ofNat 8 a.station) beaconKind

/-- The CRC of an own beacon with a payload (R104). -/
def beaconCrc (a : SecA) (p : Priority) (payload : List Byte) : BitVec 16 :=
  crc16 (coveredBytes (arbitrationBytes (priorityCode p) (BitVec.ofNat 8 a.station) beaconKind) payload)

/-- The frame assembled at the first start level (R107, R121). -/
def assemble (e : Env) (a : SecA) (slot : ResultSlot) (p : Priority) (k : Core) : Frame :=
  let payload := encodeBeacon (beaconOf e a slot k)
  { payload := payload, priority := p, crc := beaconCrc a p payload, notices := k.cond.notices,
    claimState := k.fee.claim.state, waitAge := k.fee.claim.waitAge, assembled := e.now,
    present := decide (k.fee.claim.state = .waiting) }

/-! ## The transmitter (R106 to R111) -/

/-- The station drives the line. -/
def driving (l : LinePort) : Bool :=
  match l.tx with
  | .arbitrating | .sending | .aborting => true
  | _ => false

/-- The recessive run a transmission needs (R105, R111). -/
def gapNeeded (l : LinePort) : Nat := gapBits + l.holdOff.getD 0

/-- A transmission begins: the pending beacon is taken (R107). -/
def startTransmission (e : Env) (slot : ResultSlot) (gap : Nat) (k : Core) : Core :=
  match e.setup.secA, k.line.pending with
  | some a, some p =>
    if e.setup.configured ∧ k.line.tx = .gap ∧ gapNeeded k.line ≤ gap then
      { k with line := { k.line with tx := .arbitrating, pending := none, frame := some (assemble e a slot p k) } }
    else k
  | _, _ => k

/-- The taken beacon becomes pending again, merged with a request made meanwhile; its content is discarded (R107). -/
def repend (l : LinePort) : LinePort :=
  match l.frame with
  | none => l
  | some f =>
    { l with
      frame := none
      pending := some (match l.pending with
        | none => f.priority
        | some q => lowerPriority f.priority q) }

/-- The word that won is lower than the one being sent (R108). -/
def losesTo (e : Env) (l : LinePort) (word : BitVec 15) : Bool :=
  match e.setup.secA, l.frame with
  | some a, some f => decide (word.toNat < (ownWord a f.priority).toNat)
  | _, _ => false

/-- Arbitration is lost (R108). -/
def loseArbitration (e : Env) (word : BitVec 15) (l : LinePort) : LinePort :=
  if l.tx = .arbitrating ∧ losesTo e l word then { repend l with tx := .gap } else l

/-- A level read otherwise than sent starts the break (R110). -/
def beginBreak (l : LinePort) : LinePort :=
  match l.tx with
  | .arbitrating | .sending => { l with tx := .aborting }
  | _ => l

/-- The CRC of the frame in flight. -/
def flightCrc (l : LinePort) : BitVec 16 :=
  match l.frame with
  | none => l.abortedCrc
  | some f => f.crc

/-- The break ends (R110). -/
def endBreak (k : Core) : Core :=
  if k.line.tx = .aborting then
    if k.line.aborts + 1 < abortLimit then
      { k with line := { repend k.line with tx := .gap, aborts := k.line.aborts + 1 } }
    else
      raiseCond .txFault
        { k with
          line :=
            { repend k.line with
              tx := .resting, aborts := abortLimit, restTimer := some 0, abortedCrc := flightCrc k.line } }
  else k

/-- The rest ends (R111). -/
def endRest (l : LinePort) : LinePort :=
  if l.tx = .resting ∧ expired l.restTimer restMs then
    { l with
      aborts := 0, holdOff := some (l.abortedCrc.toNat % 256), restTimer := none,
      tx := if l.pending.isSome then .gap else .idle }
  else l

/-- What the feeder account takes of a completion: the first WAITING announcement of the present claim sets its announce
time, and each sets the age the ranking uses (R149, R150). -/
def noteAnnounced (now : Nat) (f : Frame) (c : Claim) : Claim :=
  if f.present ∧ c.state = .waiting then
    { c with announced := some (c.announced.getD now), announcedAge := f.waitAge }
  else c

/-- The beacon is complete (R109). -/
def completeBeacon (e : Env) (k : Core) : Core :=
  match k.line.frame with
  | none => k
  | some f =>
    if k.line.tx = .arbitrating ∨ k.line.tx = .sending then
      let k1 := endCond .txFault k
      { k1 with
        line :=
          { k1.line with
            aborts := 0, beaconTimer := some 0, dueTaken := false, holdOff := none, frame := none,
            tx := if k1.line.pending.isSome then .gap else .idle }
        cond := { k1.cond with notices := k1.cond.notices &&& ~~~f.notices }
        fee := { k1.fee with claim := noteAnnounced e.now f k1.fee.claim } }
    else k

/-! ## Receipt and noise (R112, R113) -/

/-- The receiver reads the line: section A is installed (R106, R116). -/
def receiving (e : Env) : Bool := e.setup.secA.isSome

/-- A discarded frame or a stray counts towards the noise count (R113). -/
def countNoise (k : Core) : Core :=
  let n := min noiseMax (k.line.noise + 1)
  let k1 := { k with line := { k.line with noise := n } }
  if noiseRaise ≤ n then raiseCond .lineNoise k1 else k1

/-- A frame the receiver discards, or a stray; the station's own frames are no noise (R110, R112). -/
def discard (e : Env) (k : Core) : Core := if receiving e && !driving k.line then countNoise k else k

/-- The noise count falls by 1 (R113). -/
def decayNoise (k : Core) : Core :=
  let n := k.line.noise - 1
  let k1 := { k with line := { k.line with noise := n, noiseClock := k.line.noiseClock - secondMs } }
  if n = 0 then endCond .lineNoise k1 else k1

/-! ## Duplicate numbers (R115) -/

/-- Entry to SILENT for a duplicate: rest, abort count and hold-off end, a pending beacon stays (R115). -/
def silence (l : LinePort) : LinePort :=
  if l.tx = .silent then { l with duplicateTimer := some 0 }
  else
    { l with
      tx := .silent, silence := .duplicate, restTimer := none, aborts := 0, holdOff := none, duplicateTimer := some 0 }

/-- An intact beacon with the own number that the station did not send (R115). -/
def hearDuplicate (e : Env) (k : Core) : Core :=
  if receiving e && !driving k.line then raiseCond .duplicate { k with line := silence k.line } else k

/-- The duplicate timer expires: the station leaves SILENT and the admission test is made (R115, R151). -/
def endDuplicate (e : Env) (k : Core) : Core :=
  if expired k.line.duplicateTimer duplicateMs then
    testAdmission e
      (request .normal
        (endCond .duplicate
          { k with line := { k.line with duplicateTimer := none, silence := .none, tx := .idle } }))
  else k

/-! ## Isolation (R117) -/

/-- A valid frame from another origin: the isolation timer restarts, an ISOLATION present goes. Before the timer has
started there is nothing to restart (R117, R186). -/
def hearOther (e : Env) (k : Core) : Core :=
  if e.setup.configured then
    let k1 := endCond .isolated { k with line := { k.line with isolationTimer := some 0 } }
    updateCauses e { k1.stow.causes with isolation := false } k1
  else k

/-- The isolation timer expires (R117). -/
def endIsolation (e : Env) (k : Core) : Core :=
  if expired k.line.isolationTimer (e.setup.secC.isolation * 1000) then
    let k1 := raiseCond .isolated { k with line := { k.line with isolationTimer := none } }
    updateCauses e { k1.stow.causes with isolation := true } k1
  else k

/-! ## Beacon timing (R118) -/

/-- The beacon timer has reached the interval in force. -/
def intervalReached (e : Env) (k : Core) : Bool :=
  match k.line.beaconTimer with
  | none => false
  | some t => decide (intervalInForce e k ≤ t)

/-- The interval in force is reached: a normal request, once in a run of the timer (R118). -/
def takeDue (e : Env) (k : Core) : Core :=
  if intervalReached e k ∧ k.line.dueTaken = false then
    request .normal { k with line := { k.line with dueTaken := true } }
  else k

/-- After a step: an interval in force that has become longer makes a normal request, from the completion of configuration
on (log 53), and a request already made counts only while the interval in force stands reached (R118). -/
def followInterval (old : Nat) (e : Env) (k : Core) : Core :=
  let k1 := { k with line := { k.line with dueTaken := k.line.dueTaken && intervalReached e k } }
  if old < intervalInForce e k ∧ e.setup.configured then request .normal k1 else k1

end Sys2Proof.Machine
end

