-- ==== Sys2Proof/Machine/Wind.lean ====
section
/-! DEFINITION. The wind watch: the bin-end work in the order of R33, the local vote, stall, effective gust, the wind causes, derating (R19) and the wind proof (chapter 2). -/

namespace Sys2Proof.Machine

/-! ## Bins, gust and mean (R29 to R32) -/

/-- The bin count c (R29). -/
def binCount (w : Wind) : Nat :=
  match w.proof with
  | none => w.live
  | some p => if p.accepting then min counterMax (p.atSwitch + w.standby) else w.standby

/-- The speed of a bin of c pulses (R30). -/
def binSpeed (p : SecC) (c : Nat) : Nat := if c = 0 then 0 else min speedMax (4 * c * p.k / 100 + p.voff)

/-- The bin ring and G after one more bin (R31). -/
def joinRing (speed : Nat) (w : Wind) : Wind :=
  let ring := pushRing ringBins w.ring speed
  if ring.length = ringBins then { w with ring := ring, gust := total ring / ringBins, gustValid := true }
  else { w with ring := ring }

/-- The block accumulator and the block ring after one more bin (R32). -/
def joinBlock (speed : Nat) (w : Wind) : Wind :=
  if w.blockBins + 1 = blockBins then
    { w with blocks := pushRing ringBlocks w.blocks (w.blockSum + speed), blockSum := 0, blockBins := 0 }
  else { w with blockSum := w.blockSum + speed, blockBins := w.blockBins + 1 }

/-- M from the stored blocks, or G while none is stored (R32). -/
def formMean (w : Wind) : Wind :=
  if w.blocks = [] then { w with mean := w.gust, meanValid := w.gustValid }
  else { w with mean := total w.blocks / (blockBins * w.blocks.length), meanValid := true }

/-- Steps 1 and 2 of R33. -/
def joinBin (speed : Nat) (w : Wind) : Wind := formMean (joinBlock speed (joinRing speed w))

/-! ## Stall and usability (R35, R36) -/

/-- The FRESH wind-relevant records (R39). -/
def windPeersFresh (e : Env) : List Peer := e.peers.filter fun p => p.relWind && p.isFresh

/-- Some FRESH wind-relevant record announces a vote and a gust at the stall reference (R35). -/
def windElsewhere (e : Env) : Bool :=
  (windPeersFresh e).any fun p => !(p.vote = .none) && decide (e.setup.secC.stallRef ≤ p.gust)

/-- The stall time in bins. -/
def stallBins (e : Env) : Nat := e.setup.secC.stallTime * 4

/-- The stall timer after a bin of c pulses; while the stall stands, only a pulse returns it (R35). -/
def stallNext (e : Env) (stalled : Bool) (c t : Nat) : Nat :=
  if 0 < c then 0
  else if stalled then t
  else if windElsewhere e then min (stallBins e) (t + 1)
  else 0

/-- The cause of ANEMO_STALL after a bin (R35). -/
def stallCause (e : Env) (c t : Nat) (k : Core) : Core :=
  if 0 < c then endCond .anemoStall k
  else if stallBins e ≤ t then raiseCond .anemoStall k
  else k

/-! ## The wind proof (R43 to R45) -/

/-- Synthetic pulses in each whole bin (R44). -/
def syntheticCount (p : SecC) : Nat :=
  (clampInt 1 1023 (-((-(150 * ((p.stowGust : Int) - (p.voff : Int)))) / (4 * (p.k : Int))))).toNat

/-- Acceptance of a wind proof (R43). The live counter stands at 0 through the proof: the synthetic transitions of a bin are
counted at its end, the spec giving only their number (log 49). -/
def startWindProof (p : SecC) (w : Wind) : Wind :=
  { w with
    live := 0
    standby := 0
    proof := some
      { accepting := true, atSwitch := w.live, ring := List.replicate ringBins 0, vote := .none,
        synthetic := syntheticCount p, bins := 0 } }

/-- One shadow bin, of which the input stage lost some transitions (R44; logs 11 and 49). -/
def shadowBin (p : SecC) (lost : Nat) (r : WindProof) : WindProof :=
  let ring := pushRing ringBins r.ring (binSpeed p (min counterMax (r.synthetic - lost)))
  { r with
    ring := ring, bins := r.bins + 1, vote := if p.stowGust ≤ total ring / ringBins then .stow else .none }

/-- The proof record after a bin end: the bin of acceptance only ends; later ones are shadow bins; none at a verdict
(R44, R45). -/
def proofNext (p : SecC) (lost : Nat) (r : WindProof) : WindProof :=
  if r.accepting then { r with accepting := false } else shadowBin p lost r

/-- The verdict, if it falls: whether the proof passes (R45). -/
def proofVerdict (r : WindProof) : Option Bool :=
  if r.vote = .stow then some true else if shadowBinsMax ≤ r.bins then some false else none

/-- Step 4 of R33 on the wind watch's own record. -/
def proofRecord (p : SecC) (lost : Nat) (w : Wind) : Wind :=
  { w with
    proof := w.proof.bind fun r =>
      let r' := proofNext p lost r
      if (proofVerdict r').isSome then none else some r' }

/-- The verdict that falls at this bin end. -/
def verdictNow (p : SecC) (lost : Nat) (w : Wind) : Option Bool :=
  w.proof.bind fun r => proofVerdict (proofNext p lost r)

/-- The cause of ANEMO_PROOF after a verdict (R45). -/
def proofCause (v : Option Bool) (k : Core) : Core :=
  match v with
  | none => k
  | some true => endCond .anemoProof k
  | some false => raiseCond .anemoProof k

/-! ## Vote, effective gust, causes (R34, R36 to R40) -/

/-- The anemometer is usable (R36). -/
def windUsable (k : Core) : Bool := !isActive k .anemoStall && !isActive k .anemoProof

/-- The local vote (R34). -/
def localVote (p : SecC) (w : Wind) (usable : Bool) : Vote :=
  if !w.gustValid || !usable then .none
  else if p.stowGust ≤ w.gust ∨ p.stowMean ≤ w.mean then .stow
  else if w.vote = .stow ∧ ¬(w.gust < p.releaseGust ∧ w.mean < p.releaseMean) then .stow
  else if p.watchGust ≤ w.gust then .watch
  else .calm

/-- The highest gust that FRESH wind-relevant records with a vote announce (R37). -/
def peerGust (e : Env) : Option Nat :=
  ((windPeersFresh e).filter fun p => !(p.vote = .none)).foldl
    (fun acc p => match acc with
      | none => some p.gust
      | some g => some (max g p.gust)) none

/-- The effective gust (R37). -/
def effectiveGust (e : Env) (w : Wind) (usable : Bool) : Option Nat :=
  if w.gustValid && usable then some w.gust else peerGust e

/-- How many FRESH wind-relevant records announce STOW (R39). -/
def stowVotes (e : Env) : Nat := ((windPeersFresh e).filter fun p => p.vote = .stow).length

/-- The effective quorum (R39). -/
def quorum (e : Env) (usable : Bool) : Nat := if usable then e.setup.secC.quorum else 1

/-- WIND_PEERS is present (R39). -/
def peersCause (e : Env) (usable : Bool) : Bool := decide (quorum e usable ≤ stowVotes e)

/-- BLIND is present (R40). -/
def blindCause (e : Env) (w : Wind) : Bool :=
  !w.usable && w.grace.isNone && !((windPeersFresh e).any fun p => !(p.vote = .none))

/-- Steps 5 to 8 of R33 on the wind watch's own record, with the counters returned to 0 and the next bin begun. -/
def settleWind (e : Env) (usable : Bool) (w : Wind) : Wind :=
  let v := localVote e.setup.secC w usable
  let w1 := { w with usable := usable, vote := v, effective := effectiveGust e w usable }
  { w1 with
    outLocal := decide (v = .stow), outPeers := peersCause e usable, outBlind := blindCause e w1
    live := 0, standby := 0, binClock := w1.binClock.map fun t => t - binMs }

/-- The cause set with the wind watch's three causes as it hands them over (R49). -/
def windCauses (w : Wind) (c : Causes) : Causes :=
  { c with windLocal := w.outLocal, windPeers := w.outPeers, blind := w.outBlind }

/-- The derating flag under an effective gust (R19). -/
def deratingFor (threshold : Nat) (gust : Option Nat) (now : Bool) : Bool :=
  match gust with
  | none => now
  | some g => if threshold ≤ g then true else if g + derateHysteresis < threshold then false else now

/-- The axis controller takes the effective gust (R19). -/
def takeGust (e : Env) (k : Core) : Core :=
  let d := deratingFor e.setup.secC.derate e.wind.effective k.axes.derating
  if d = k.axes.derating then k else recomputeClaim e { k with axes := { k.axes with derating := d } }

/-! ## The bin end (R33) -/

/-- The wind watch's record after a bin end, given the usability derived in its step 5. -/
def windAfterBin (e : Env) (lost : Nat) (usable : Bool) (stalled : Bool) : Wind :=
  let c := binCount e.wind
  let w := joinBin (binSpeed e.setup.secC c) e.wind
  let w := { w with stall := stallNext e stalled c w.stall }
  settleWind e usable (proofRecord e.setup.secC lost w)

/-- Steps 3 and 4 of R33 on the conditions. -/
def binConditions (e : Env) (lost : Nat) (k : Core) : Core :=
  let c := binCount e.wind
  let t := stallNext e (isActive k .anemoStall) c e.wind.stall
  proofCause (verdictNow e.setup.secC lost e.wind) (stallCause e c t k)

/-- Steps 8 and 9 of R33 on the other blocks: the causes as one update, the request of a vote change, derating, and the
releases that a gust now valid allows (R2, R31), which come last, after the stow unit has acted on the causes
(DESIGN CHOICE, log 66). -/
def handWind (old : Vote) (e : Env) (k : Core) : Core :=
  let k1 := updateCauses e (windCauses e.wind k.stow.causes) k
  let k2 := if e.wind.vote = old then k1 else request .urgent k1
  tryReleases e (takeGust e k2)

/-- The bin-end work (R33); nothing before the first bin begins (R28). -/
def binEndWork (lost : Nat) (s : State) : State :=
  if s.env.wind.binClock.isNone then s
  else
    let k := binConditions s.env lost s.core
    let w := windAfterBin s.env lost (windUsable k) (isActive s.core .anemoStall)
    let e := { s.env with wind := w }
    { s with env := e, core := handWind s.env.wind.vote e k }

/-- A recount of WIND_PEERS and BLIND between bin ends, on a table change or at the end of the grace (R39, R40). -/
def recountWind (s : State) : State :=
  let w :=
    { s.env.wind with
      outPeers := peersCause s.env s.env.wind.usable, outBlind := blindCause s.env s.env.wind }
  let e := { s.env with wind := w }
  { s with env := e, core := updateCauses e (windCauses w s.core.stow.causes) s.core }

/-- The grace timer expires: BLIND is evaluated for the first time (R40). -/
def graceWork (s : State) : State :=
  if expired s.env.wind.grace (graceMs s.env) then
    recountWind { s with env := { s.env with wind := { s.env.wind with grace := none } } }
  else s

/-- A low-to-high transition of the anemometer (R29). -/
def countPulse (w : Wind) : Wind :=
  if w.binClock.isNone then w
  else if w.proof.isSome then { w with standby := min counterMax (w.standby + 1) }
  else { w with live := min counterMax (w.live + 1) }

/-! ## What falls at a bin end -/

/-- The gust becomes valid at the end of this bin (R31). -/
def gustFalls (w : Wind) : Bool := !w.gustValid && decide (w.ring.length + 1 = ringBins)

/-- A block completes at the end of this bin (R32). -/
def blockFalls (w : Wind) : Bool := decide (w.blockBins + 1 = blockBins)

/-- The stall timer reaches its time at the end of this bin (R35). -/
def stallFalls (s : State) : Bool :=
  !isActive s.core .anemoStall
    && decide (binCount s.env.wind = 0 ∧ stallBins s.env ≤ stallNext s.env false 0 s.env.wind.stall)

/-- A verdict of the wind proof falls at the end of this bin (R45). -/
def verdictFalls (lost : Nat) (s : State) : Bool := (verdictNow s.env.setup.secC lost s.env.wind).isSome

end Sys2Proof.Machine
end

