-- ==== Sys2Proof/Machine/Peers.lean ====
section
/-! DEFINITION. The peer table: taking a beacon (7.2), a full table (7.3), ageing (7.4), what a change hands on (7.5), budget mismatch (7.6). The list of records is kept rising in station number. -/

namespace Sys2Proof.Machine

/-! ## Records -/

/-- The record of a station, if the table holds one. -/
def findPeer (n : Nat) (l : List Peer) : Option Peer := l.find? fun p => p.station == n

/-- Places a record by its station number, in the room of an earlier record of that number. -/
def putPeer (p : Peer) : List Peer → List Peer
  | [] => [p]
  | q :: qs =>
    if p.station < q.station then p :: q :: qs
    else if p.station = q.station then p :: qs
    else q :: putPeer p qs

/-- The table without the record of a station. -/
def dropPeer (n : Nat) (l : List Peer) : List Peer := l.filter fun p => !(p.station == n)

/-- NEIGHBOUR and WIND relevance of an origin (R126). -/
def isNeighbour (a : SecA) (n : Nat) : Bool := a.neighbours.contains n
def isWindStation (a : SecA) (n : Nat) : Bool := a.neighbours.contains n || a.windList.contains n

/-- The claim kind and state of a well-formed beacon. -/
def kindOfClaim (b : Beacon) : ClaimKind := (claimKindOf b.claimKind).getD .none
def stateOfClaim (b : Beacon) : ClaimState := (claimStateOf b.claimState).getD .none

/-- The record that a well-formed beacon of a station gives, FRESH at age 0 (R126, R127, R128). -/
def peerOf (a : SecA) (n : Nat) (b : Beacon) : Peer :=
  { station := n
    relFeeder := decide (b.feeder.toNat = a.feeder)
    relNeighbour := isNeighbour a n
    relWind := isWindStation a n
    exponent := b.exponent.toNat
    feeder := b.feeder.toNat
    budget := b.budget.toNat
    load := b.load.toNat
    claimKind := kindOfClaim b
    claimState := stateOfClaim b
    need := b.need.toNat
    waitAge := b.waitAge.toNat
    demand := b.demand.toNat
    gust := b.gust.toNat
    vote := voteOf b.vote
    kinds := b.kinds
    age := 0
    sub := 0
    isFresh := true }

/-- A record's relevance is not empty. -/
def isRelevant (p : Peer) : Bool := p.relFeeder || p.relNeighbour || p.relWind

/-! ## What a change hands on (R135, R137) -/

/-- Some feeder mate announces another budget than the own one (R137). -/
def budgetsDiffer (e : Env) : Bool :=
  hasBudget e && (feederMates e).any fun p => !(p.budget == e.setup.secC.budget)

/-- The feeder account and the condition unit take a change of a FEEDER record (R137, R148). -/
def handFeeder (e : Env) (k : Core) : Core := compute e (syncCond .budgetMismatch (budgetsDiffer e) k)

/-- A table change: the new records, and which readers receive it; the wind watch, and with it the stow unit, before the
feeder account, an order that the spec leaves open (log 54). -/
def changePeers (l : List Peer) (toWind toFeeder : Bool) (s : State) : State :=
  let s1 := { s with env := { s.env with peers := l } }
  let s2 := if toWind then recountWind s1 else s1
  if toFeeder then { s2 with core := handFeeder s2.env s2.core } else s2

/-- A slot becomes free: the cause of TABLE_FULL ends (R130). -/
def freeSlot (s : State) : State := { s with core := endCond .tableFull s.core }

/-! ## Taking a beacon (R127 to R130) -/

/-- An update of a record (R127). -/
def updatePeer (old new : Peer) (s : State) : State :=
  if isRelevant new then
    changePeers (putPeer new s.env.peers)
      ((old.relWind || new.relWind) && (!old.isFresh || !(old.vote = new.vote)))
      (old.relFeeder || new.relFeeder) s
  else changePeers (dropPeer old.station s.env.peers) (old.relWind || new.relWind) (old.relFeeder || new.relFeeder)
    (freeSlot s)

/-- The elder of two records; of two with one age, the one with the higher station number (R129). -/
def elder (acc : Option Peer) (p : Peer) : Option Peer :=
  match acc with
  | none => some p
  | some q => if q.age < p.age ∨ (q.age = p.age ∧ q.station < p.station) then some p else some q

/-- The record that a newcomer evicts from a full table, if it evicts one (R129). -/
def evicted (new : Peer) (l : List Peer) : Option Peer :=
  match (l.filter fun p => !p.isFresh).foldl elder none with
  | some p => some p
  | none => if new.relFeeder then (l.filter fun p => !p.relFeeder).foldl elder none else none

/-- A newcomer (R128, R129). -/
def admitPeer (new : Peer) (s : State) : State :=
  if s.env.peers.length < tableMax then changePeers (putPeer new s.env.peers) new.relWind new.relFeeder s
  else
    match evicted new s.env.peers with
    | some old =>
      changePeers (putPeer new (dropPeer old.station s.env.peers)) (old.relWind || new.relWind)
        (old.relFeeder || new.relFeeder) s
    | none => { s with core := raiseCond .tableFull s.core }

/-- The table takes a well-formed beacon (R126 to R128). -/
def takePeer (new : Peer) (s : State) : State :=
  match findPeer new.station s.env.peers with
  | some old => updatePeer old new s
  | none => if isRelevant new then admitPeer new s else s

/-- An intact beacon of this length, read off the line (R112, R114, R115, R125). -/
def takeBeacon (origin : Byte) (payload : List Byte) (s : State) : State :=
  match s.env.setup.secA with
  | none => s
  | some a =>
    if payload.length ≠ beaconLength then { s with core := discard s.env s.core }
    else if origin.toNat = a.station then { s with core := hearDuplicate s.env s.core }
    else if inRange 1 64 origin.toNat then
      let s1 := { s with core := hearOther s.env s.core }
      let b := decodeBeacon payload
      if beaconWellFormed b then takePeer (peerOf a origin.toNat b) s1 else s1
    else s

/-! ## Ageing (R131 to R133) -/

/-- The record's age has reached its stale age, or its expiry age. -/
def staleDue (p : Peer) : Bool := decide (3 * 2 ^ p.exponent ≤ p.age * ageMs)
def expiryDue (p : Peer) : Bool := decide (8 * 2 ^ p.exponent ≤ p.age * ageMs)

/-- A record becomes STALE (R132). -/
def markStale (n : Nat) (s : State) : State :=
  match findPeer n s.env.peers with
  | none => s
  | some p =>
    if p.isFresh && staleDue p then
      changePeers (putPeer { p with isFresh := false } s.env.peers) p.relWind p.relFeeder s
    else s

/-- A record is removed by expiry (R133). -/
def expirePeer (n : Nat) (s : State) : State :=
  match findPeer n s.env.peers with
  | none => s
  | some p =>
    if expiryDue p then changePeers (dropPeer n s.env.peers) p.relWind p.relFeeder (freeSlot s) else s

end Sys2Proof.Machine
end

