-- ==== Sys2Proof/Machine/Clock.lean ====
section
/-! DEFINITION. The passing of time: every running timer, age and phase takes the ms that pass. A timer stops at its limit; what its expiry brings is the meaning of a command of its own (log 2). -/

namespace Sys2Proof.Machine

/-- The brake timer's limit: 2 s in UNBRAKING, 1 s in STOPPING (R3, R4). -/
def brakeLimit : AxisState → Nat
  | .unbraking => releaseTimeMs
  | _ => engageTimeMs

/-- The idle-brake time in ms (R8). -/
def idleLimit (e : Env) : Nat := e.setup.secB.idleBrake * 1000

def advanceAxis (e : Env) (dt : Nat) (r : AxisRec) : AxisRec :=
  { r with
    brakeTimer := runTimer dt (brakeLimit r.state) r.brakeTimer
    idleTimer := runTimer dt (idleLimit e) r.idleTimer }

def advanceStow (e : Env) (dt : Nat) (u : StowUnit) : StowUnit :=
  { u with
    holdTimer := runTimer dt (e.setup.secC.releaseHold * 60000) u.holdTimer
    pinTimer := runTimer dt (e.setup.secB.pinLimit * 1000) u.pinTimer
    settleTimer := runTimer dt e.setup.secB.wakeSettle u.settleTimer }

/-- The cycle phase of a zone, or the time to its first cycle start; ms that pass beyond a cycle start belong to the cycle
that it starts (R97). -/
def advanceZone (e : Env) (dt : Nat) (z : Zone) : Zone :=
  match z.untilFirst with
  | some n => { z with untilFirst := some (n - dt), phase := z.phase + (dt - n) }
  | none => if heaterRuns e then { z with phase := z.phase + dt } else z

def advanceHeat (e : Env) (dt : Nat) (h : Heater) : Heater :=
  { h with
    memory := runTimer dt (e.setup.secD.wetMemory * 60000) h.memory
    zones := fourMap (advanceZone e dt) h.zones }

/-- The line port's timers; an arbitration under way is over within a ms (log 13). -/
def advanceLine (e : Env) (dt : Nat) (l : LinePort) : LinePort :=
  { l with
    tx := if l.tx = .arbitrating ∧ 0 < dt then .sending else l.tx
    restTimer := runTimer dt restMs l.restTimer
    duplicateTimer := runTimer dt duplicateMs l.duplicateTimer
    beaconTimer := l.beaconTimer.map fun t => t + dt
    noiseClock := l.noiseClock + dt
    isolationTimer := runTimer dt (e.setup.secC.isolation * 1000) l.isolationTimer }

/-- The wait age of a WAITING claim (R142). -/
def advanceClaim (dt : Nat) (c : Claim) : Claim :=
  if c.state = .waiting then
    { c with waitAge := min waitAgeMax (c.waitAge + (c.waitSub + dt) / ageMs), waitSub := (c.waitSub + dt) % ageMs }
  else c

def advanceFeeder (e : Env) (dt : Nat) (f : Feeder) : Feeder :=
  { f with claim := advanceClaim dt f.claim, fill := runTimer dt (graceMs e) f.fill }

/-- The blocks' timers. -/
def advanceCore (e : Env) (dt : Nat) (k : Core) : Core :=
  { k with
    axes := { k.axes with az := advanceAxis e dt k.axes.az, el := advanceAxis e dt k.axes.el }
    stow := advanceStow e dt k.stow
    heat := advanceHeat e dt k.heat
    line := advanceLine e dt k.line
    fee := advanceFeeder e dt k.fee }

/-- A peer record's age in 100 ms periods (R131). -/
def agePeer (dt : Nat) (p : Peer) : Peer :=
  { p with age := min ageMax (p.age + (p.sub + dt) / ageMs), sub := (p.sub + dt) % ageMs }

/-- A lockout record's age in seconds (R71). -/
def ageLock (dt : Nat) (l : Lock) : Lock :=
  { l with age := min ageMax (l.age + (l.sub + dt) / secondMs), sub := (l.sub + dt) % secondMs }

def advanceWind (e : Env) (dt : Nat) (w : Wind) : Wind :=
  { w with grace := runTimer dt (graceMs e) w.grace, binClock := w.binClock.map fun t => t + dt }

def advanceEnv (dt : Nat) (e : Env) : Env :=
  { e with
    now := e.now + dt
    peers := e.peers.map (agePeer dt)
    list := e.list.map (ageLock dt)
    wind := advanceWind e dt e.wind }

/-- The store's records age with the list's; a write in progress takes its time (R71, R79). -/
def advanceStore (dt : Nat) (st : Store) : Store :=
  { st with
    records := st.records.map (ageLock dt)
    writing := st.writing.map fun w => (w.1, min writeMs (w.2 + dt)) }

/-- dt ms pass. -/
def advance (dt : Nat) (s : State) : State :=
  { s with env := advanceEnv dt s.env, core := advanceCore s.env dt s.core, store := advanceStore dt s.store }

end Sys2Proof.Machine
end

