-- ==== Sys2Proof/Machine/HeatOps.lean ====
section
/-! DEFINITION. The heater unit's events: sensor polls (5.3), precipitation (5.4), heater cycles (5.8), contactor feedback (5.9). -/

namespace Sys2Proof.Machine

/-! ## Sensors (R89, R90) -/

/-- A poll succeeds with a value within the sensor range (R89). -/
def polled (a : Option Int) : Option Int := a.filter fun t => inRangeInt sensorLow sensorHigh t

/-- A zone's reading and failed-poll count after a poll. -/
def pollZone (a : Option Int) (z : Zone) : Zone :=
  match polled a with
  | some t => { z with reading := some t, fails := 0 }
  | none => { z with fails := min failedPolls (z.fails + 1) }

/-- The heater unit after a poll round; the zones that are not fitted are skipped (R88, R89). -/
def pollHeater (e : Env) (a : PollAnswers) (h : Heater) : Heater :=
  { h with
    zones := fourOf fun z =>
      if fitted e z then pollZone (fourGet a.zone z) (fourGet h.zones z) else fourGet h.zones z
    ambient := match polled a.ambient with
      | some t => some t
      | none => h.ambient
    ambientFails := match polled a.ambient with
      | some _ => 0
      | none => min failedPolls (h.ambientFails + 1) }

/-- The causes that successful polls end (R90). -/
def endSensorCauses (k : Core) : Core :=
  let k1 := allFour.foldl (fun k z => if (fourGet k.heat.zones z).fails = 0 then endCond (.zoneSensor z) k else k) k
  if k1.heat.ambientFails = 0 then endCond .ambientSensor k1 else k1

/-- A poll round and its round end, whose one evaluation serves the sensor conditions that end in it as well (R89, R95;
DESIGN CHOICE, log 63). A condition that a third failed poll raises comes after this evaluation, in a SENSOR_FAULT of its own
(R90; DESIGN CHOICE, log 65). -/
def pollRound (e : Env) (a : PollAnswers) (k : Core) : Core :=
  if heaterRuns e then evaluateHeat e (endSensorCauses { k with heat := pollHeater e a k.heat }) else k

/-- The condition of a sensor, and its failed-poll count. -/
def sensorCond : Sensor → Cond
  | .zone z => .zoneSensor z
  | .ambient => .ambientSensor

def sensorFails (h : Heater) : Sensor → Nat
  | .zone z => (fourGet h.zones z).fails
  | .ambient => h.ambientFails

/-- A failed-poll count of 3 raises the sensor's condition, after the round-end evaluation and with one of its own
(R90, R95; DESIGN CHOICE, log 65). -/
def sensorFault (e : Env) (x : Sensor) (k : Core) : Core :=
  if failedPolls ≤ sensorFails k.heat x then evaluateHeat e (raiseCond (sensorCond x) k) else k

/-! ## Precipitation (R91) -/

/-- The wet input has shown another level than the one taken for 2 s. -/
def wetReady (e : Env) (k : Core) : Bool :=
  heaterRuns e && decide (wetFilterMs ≤ e.inputs.wetHeld) && !(e.inputs.wetLevel == k.heat.wet)

/-- A wet change (R91). -/
def takeWet (e : Env) (k : Core) : Core :=
  if wetReady e k then
    evaluateHeat e
      { k with
        heat :=
          { k.heat with
            wet := e.inputs.wetLevel
            memory := if e.inputs.wetLevel then none else if e.setup.secD.wetMemory = 0 then none else some 0 } }
  else k

/-- The wet memory expires (R91). -/
def endWetMemory (e : Env) (k : Core) : Core :=
  if expired k.heat.memory (e.setup.secD.wetMemory * 60000) then
    evaluateHeat e { k with heat := { k.heat with memory := none } }
  else k

/-! ## Cycles (R97, R98) -/

/-- The on-time of a duty in a cycle (R98). -/
def onTime (e : Env) (duty : Nat) : Nat := duty * cyclePeriod e / 1000

/-- The cycle phase as a cycle starts: the ms that have passed since that moment, 0 where it is met on time (R97). -/
def phaseAtStart (e : Env) (z : Zone) : Nat := if z.untilFirst.isSome then z.phase else z.phase - cyclePeriod e

/-- A zone at its cycle start (R97, R98). -/
def startCycle (e : Env) (isFitted : Bool) (z : Zone) : Zone :=
  let z1 := { z with untilFirst := none, phase := phaseAtStart e z }
  if isFitted then { z1 with cycle := z.output, on := decide (0 < onTime e z.output) } else z1

/-- The on-time of the present cycle has been reached (R98). -/
def onTimeOver (e : Env) (z : Zone) : Bool :=
  z.on && decide (onTime e z.cycle ≤ z.phase) && decide (onTime e z.cycle < cyclePeriod e)

def endOnTime (e : Env) (z : Zone) : Zone := if onTimeOver e z then { z with on := false } else z

/-- One zone replaced. -/
def putZone (k : Core) (i : Fin 4) (z : Zone) : Core := { k with heat := { k.heat with zones := fourSet k.heat.zones i z } }

/-- A cycle start of a zone, once the heater cycles run. -/
def cycleStart (e : Env) (i : Fin 4) (k : Core) : Core :=
  if heaterRuns e then putZone k i (startCycle e (fitted e i) (fourGet k.heat.zones i)) else k

/-- The end of a zone's on-time. -/
def onTimeEnd (e : Env) (i : Fin 4) (k : Core) : Core := putZone k i (endOnTime e (fourGet k.heat.zones i))

/-- The cycles begin: zone n's first start comes (n − 1) quarter periods after section D's installation (R97). -/
def beginCycles (e : Env) (h : Heater) : Heater :=
  { h with zones := fourOf fun z => { fourGet h.zones z with untilFirst := some (z.val * (cyclePeriod e / 4)) } }

/-! ## Contactor feedback (R100) -/

/-- The disagreement of a contactor and its feedback has lasted 500 ms (R100). -/
def zoneFault (e : Env) (i : Fin 4) (k : Core) : Core :=
  if fitted e i ∧ persistMs ≤ (fourGet k.heat.zones i).mismatch then evaluateHeat e (raiseCond (.zoneFeedback i) k)
  else k

end Sys2Proof.Machine
end

