-- ==== Sys2Proof/Machine/Proofs.lean ====
section
/-! DEFINITION. The feedback proof: its ten comparisons, the window's samples and the verdict (10.5). -/

namespace Sys2Proof.Machine

/-- A bit at a place of the ten comparisons. -/
def placeBit (i : Nat) (b : Bool) : BitVec 10 := if b then 1#10 <<< i else 0

/-- The raw levels of the ten comparisons at a sample (R177). -/
def rawBits (x : Samples) : BitVec 10 :=
  placeBit 0 x.az.brakeReleased ||| placeBit 1 x.el.brakeReleased ||| placeBit 2 x.pinEngaged
    ||| placeBit 3 x.pinRetracted ||| placeBit 4 x.az.enableReadback ||| placeBit 5 x.el.enableReadback
    ||| placeBit 6 x.zoneClosed.z1 ||| placeBit 7 x.zoneClosed.z2 ||| placeBit 8 x.zoneClosed.z3
    ||| placeBit 9 x.zoneClosed.z4

/-- The expectations of the ten comparisons: the outputs as commanded, for the pin the levels last taken (R177). -/
def expectedBits (e : Env) (k : Core) : BitVec 10 :=
  placeBit 0 (brakeEnergised k.axes.az) ||| placeBit 1 (brakeEnergised k.axes.el) ||| placeBit 2 (pinEngaged e)
    ||| placeBit 3 (pinRetracted e) ||| placeBit 4 (ampEnabled k.axes.az) ||| placeBit 5 (ampEnabled k.axes.el)
    ||| placeBit 6 k.heat.zones.z1.on ||| placeBit 7 k.heat.zones.z2.on ||| placeBit 8 k.heat.zones.z3.on
    ||| placeBit 9 k.heat.zones.z4.on

/-- The comparisons that are part of the proof: a zone that is not fitted is no item (R177). -/
def proofItems (e : Env) : BitVec 10 :=
  0b111111#10 ||| placeBit 6 (fitted e 0) ||| placeBit 7 (fitted e 1) ||| placeBit 8 (fitted e 2)
    ||| placeBit 9 (fitted e 3)

/-- Where a comparison reports agreement with an expectation; one whose comparing element is stuck always does. -/
def agreeBits (raw expected stuck : BitVec 10) : BitVec 10 := ~~~(raw ^^^ expected) ||| stuck

/-- Acceptance of a feedback proof (R177). -/
def startFeedbackProof : FeedbackProof := { sample := 0, proven := 0, failed := 0, evenAgreed := 0, evenCommand := 0 }

/-- An even sample: the true comparisons. -/
def evenSample (raw expected stuck : BitVec 10) (p : FeedbackProof) : FeedbackProof :=
  { p with sample := p.sample + 1, evenAgreed := agreeBits raw expected stuck, evenCommand := expected }

/-- An odd sample: the inverted comparisons, for the pairs that count (R177). -/
def oddSample (raw expected stuck : BitVec 10) (p : FeedbackProof) : FeedbackProof :=
  let counts := p.evenAgreed &&& ~~~(p.evenCommand ^^^ expected)
  let inverted := agreeBits raw (~~~expected) stuck
  { p with
    sample := p.sample + 1, proven := p.proven ||| (counts &&& ~~~inverted), failed := p.failed ||| (counts &&& inverted) }

/-- The next sample is one of the window and odd, so that it belongs to the proof alone (R178). -/
def isOddSample (p : Option FeedbackProof) : Bool :=
  match p with
  | none => false
  | some p => decide (p.sample < proofSamples) && decide (p.sample % 2 = 1)

/-- What a sample counts in the watches and filters, in ms: 20 at an even sample of the window, 0 at an odd one,
otherwise one control interval (R178; log 14). -/
def sampleMs (p : Option FeedbackProof) : Nat :=
  match p with
  | none => controlMs
  | some p => if p.sample < proofSamples then if p.sample % 2 = 1 then 0 else 2 * controlMs else controlMs

/-- The proof after a sample (R177). -/
def proofSample (raw expected stuck : BitVec 10) (p : FeedbackProof) : FeedbackProof :=
  if p.sample < proofSamples then
    if p.sample % 2 = 1 then oddSample raw expected stuck p else evenSample raw expected stuck p
  else p

/-- Some item of the proof has a comparison failed or not proven (R177, R179). -/
def proofFails (e : Env) (p : FeedbackProof) : Bool := !(proofItems e &&& (p.failed ||| ~~~p.proven) == 0)

/-- The verdict at the end of sample 19 (R179). -/
def feedbackVerdict (e : Env) (k : Core) : Core :=
  match k.cond.proof with
  | none => k
  | some p =>
    if proofSamples ≤ p.sample then
      syncCond .proofFeedback (proofFails e p) { k with cond := { k.cond with proof := none } }
    else k

/-- Neither proof runs and the posture is IDLE or STOWED: a proof may start (R42, R176). -/
def mayProve (e : Env) (k : Core) : Bool :=
  e.wind.proof.isNone && k.cond.proof.isNone && (posture e k = .idle || posture e k = .stowed)

end Sys2Proof.Machine
end

