-- ==== Sys2Proof/Machine/Interval.lean ====
section
/-! DEFINITION. The control interval: the field inputs sampled, the encoders read, both axes computed, the loads handed on, the stow unit's tests (1.3 to 1.6, R48, R53, R56, R72, R91, R100, R155, R185). What a sampled level or a timer then sets off is the meaning of a command of its own (log 21). -/

namespace Sys2Proof.Machine

/-! ## Sampling (11.4) -/

def sampleOf (x : Samples) : Axis → AxisSample
  | .az => x.az
  | .el => x.el

/-- The pin and key filters after a sample (R48, R72). The pins count from the start instant, with which the first control
interval begins (R184, R185), so their first sample counts that interval. The keys count from their first sample, and only
once section A is installed (R72, R186). -/
def sampleFilters (setup : Setup) (ms : Nat) (x : Samples) (i : Inputs) : Inputs :=
  { i with
    pinEngaged := filterSample pinFilterMs controlMs ms x.pinEngaged i.pinEngaged
    pinRetracted := filterSample pinFilterMs controlMs ms x.pinRetracted i.pinRetracted
    keys := match setup.secA with
      | none => i.keys
      | some a =>
        fourOf fun n =>
          filterSample pinFilterMs 0 controlMs (keyActive (fourGet a.keys n).sense (fourGet x.keyHigh n))
            (fourGet i.keys n) }

/-- The precipitation filter after a sample, from section D's installation on (R91). -/
def sampleWet (runs : Bool) (x : Samples) (i : Inputs) : Inputs :=
  if runs then
    if i.wetLevel = x.wet then { i with wetHeld := min wetFilterMs (i.wetHeld + controlMs) }
    else { i with wetLevel := x.wet, wetHeld := 0 }
  else i

/-- The inputs after a sample. `ms` is what the sample counts for the inputs of a feedback proof: on an odd sample of its
window these inputs are left alone (R178). In PARKED the amplifier fault input is not acted on (R27): the level last sampled
before stands for R17's cause and R6's test until WAKING (DESIGN CHOICE, log 64). -/
def sampleInputs (e : Env) (park : Park) (ms : Nat) (x : Samples) : Inputs :=
  let i := { e.inputs with azLow := x.az.lowLimit, azHigh := x.az.highLimit, elLow := x.el.lowLimit, elHigh := x.el.highLimit }
  let i := { i with ampFault := if park = .parked then i.ampFault else x.ampFault }
  let i :=
    if ms = 0 then { i with keys := (sampleFilters e.setup ms x i).keys }
    else
      { sampleFilters e.setup ms x i with
        azReleased := x.az.brakeReleased, elReleased := x.el.brakeReleased, zoneClosed := x.zoneClosed }
  sampleWet (heaterRuns e) x i

/-- A mismatch timer after a counted sample (R7, R100). -/
def mismatchNext (ms : Nat) (disagrees : Bool) (t : Nat) : Nat := if disagrees then min persistMs (t + ms) else 0

/-- The brake watch of an axis at a counted sample: while the axis's brake timer runs the sample is that of R3 and R4 and
not the watch's, and agreement ends the cause (R7). -/
def watchBrake (e : Env) (ms : Nat) (stuck : Bool) (i : Axis) (k : Core) : Core :=
  let r := getAxis k i
  let disagrees := (brakeReleased e i != brakeEnergised r) && !stuck
  let k1 :=
    putAxis k i
      (if running r.brakeTimer then { r with brakeSeen := true }
        else { r with mismatchTimer := mismatchNext ms disagrees r.mismatchTimer })
  if disagrees then k1 else endCond (.brake i) k1

/-- The feedback watch of a zone at a counted sample: agreement ends the cause (R100). -/
def watchZone (e : Env) (ms : Nat) (stuck : Bool) (z : Fin 4) (k : Core) : Core :=
  if fitted e z then
    let r := fourGet k.heat.zones z
    let disagrees := (fourGet e.inputs.zoneClosed z != r.on) && !stuck
    let k1 := putZone k z { r with mismatch := mismatchNext ms disagrees r.mismatch }
    if disagrees then k1 else endCond (.zoneFeedback z) k1
  else k

/-- Some zone's feedback condition differs between two cores. -/
def zoneCondsDiffer (k k' : Core) : Bool :=
  allFour.any fun z => !(condAt k.cond (.zoneFeedback z) = condAt k'.cond (.zoneFeedback z))

/-- The watches of a sample that counts: brakes and zones; where zone conditions change, one evaluation follows for them all
(R95, R170; DESIGN CHOICE, log 63). -/
def watchFeedback (e : Env) (ms : Nat) (stuck : BitVec 10) (k : Core) : Core :=
  if ms = 0 then k
  else
    let k1 := watchBrake e ms (stuck.getLsbD 1) .el (watchBrake e ms (stuck.getLsbD 0) .az k)
    let k2 := allFour.foldl (fun k z => watchZone e ms (stuck.getLsbD (6 + z.val)) z k) k1
    if zoneCondsDiffer k k2 then evaluateHeat e k2 else k2

/-- The causes that inactive switches and an amplifier fault input no longer asserted end (R17). -/
def endInputCauses (e : Env) (k : Core) : Core :=
  let f (i : Axis) (k : Core) : Core := if limitActive e i then k else endCond (.limit i) k
  let k1 := f .el (f .az k)
  if e.inputs.ampFault then k1 else endCond .ampFault k1

/-- The sampling of a control interval: the proof's comparisons (R177) and the watches (R7, R100) against the commands as they
stand before the interval's own axis work (DESIGN CHOICE, log 68), and the inputs. -/
def sampleAll (x : Samples) (s : State) : State :=
  let p := s.core.cond.proof
  let ms := sampleMs p
  let p' := p.map (proofSample (rawBits x) (expectedBits s.env s.core) x.stuck)
  let e := { s.env with inputs := sampleInputs s.env s.core.stow.park ms x }
  let k := { s.core with cond := { s.core.cond with proof := p' } }
  { s with env := e, core := watchFeedback e ms x.stuck (endInputCauses e k) }

/-! ## Encoders (R16, R27, R185) -/

/-- An answered read's angle with the configured offset (R16). -/
def encoderAngle (e : Env) (i : Axis) (a : EncoderAnswer) : Option Int :=
  match a with
  | .angle u => some (u + micro (axisParams e i).offset)
  | _ => none

/-- The value lies within the jump limit of the preceding answered read, or there is none (R16). -/
def withinJump (e : Env) (i : Axis) (r : AxisRec) (v : Int) : Bool :=
  match r.answered with
  | none => true
  | some p => decide (absInt (v - p) ≤ micro (axisParams e i).jump)

/-- A read that passes: accepted, or one more of the recovery count while the fault cause is present. -/
def goodRead (v : Int) (r : AxisRec) : AxisRec :=
  if r.encoderFault then { r with answered := some v, recovery := min goodReads (r.recovery + 1) }
  else { r with answered := some v, reading := some v }

/-- A rejected read; a value that failed the jump test alone is the answered read the next one is tested against. -/
def rejectedRead (v : Option Int) (r : AxisRec) : AxisRec :=
  { r with answered := if v.isSome then v else r.answered, recovery := 0, encoderFault := true }

/-- One encoder read (R16). -/
def readEncoder (e : Env) (i : Axis) (a : EncoderAnswer) (k : Core) : Core :=
  let r := getAxis k i
  let v := encoderAngle e i a
  match v.filter (withinJump e i r) with
  | some u => putAxis k i (goodRead u r)
  | none => faultAxis e i (raiseCond (.encoder i) (putAxis k i (rejectedRead v r)))

/-- x and the last demand at the first read (R185). -/
def placeAxis (r : AxisRec) : AxisRec := { r with x := readingOf r, lastDemand := readingOf r }

/-- The encoders are read: section D has been dealt with and the encoders have power (R27, R185). -/
def encodersOn (e : Env) (k : Core) : Bool := !(e.setup.statusD = .unread) && !(k.stow.park = .parked)

/-- The encoder reads of a control interval. -/
def readEncoders (x : Samples) (s : State) : State :=
  if encodersOn s.env s.core then
    let k := readEncoder s.env .el x.el.encoder (readEncoder s.env .az x.az.encoder s.core)
    if s.env.setup.encodersRead then { s with core := k }
    else
      { s with
        env := { s.env with setup := { s.env.setup with encodersRead := true } }
        core := { k with axes := { k.axes with az := placeAxis k.axes.az, el := placeAxis k.axes.el } } }
  else s

/-! ## Axes, loads, claim (R9 to R15, R155) -/

/-- Axis processing runs: not suspended by parking, and the axes placed (R27, R185). -/
def axesRun (e : Env) (k : Core) : Bool := k.stow.park = .run && e.setup.encodersRead

/-- Both axes in one control interval; an azimuth track that left the soft limits raises AZ_RANGE (R9). -/
def computeAxes (e : Env) (k : Core) : Core :=
  if axesRun e k then
    let hit := k.axes.az.state = .active && (formDemand e k .az).rangeHit
    let k1 := { k with axes := { k.axes with az := axisInterval e k .az, el := axisInterval e k .el } }
    if hit then raiseCond .azRange k1 else k1
  else k

/-- The loads and the accelerating axes as the axis controller hands them over (R13). -/
def handLoads (k : Core) : Feeder :=
  { k.fee with
    loadAz := k.axes.az.load, loadEl := k.axes.el.load
    accelAz := decide (k.axes.az.phase = .accel), accelEl := decide (k.axes.el.phase = .accel) }

/-- The feeder account takes the loads: the claim that was ACTIVE as the interval began ends where no axis accelerates
(R155), and an own load change brings a computation (R148). -/
def takeLoads (e : Env) (wasActive : Bool) (k : Core) : Core :=
  let f := handLoads k
  let k1 := { k with fee := f }
  if wasActive && k.fee.claim.state = .active && !f.accelAz && !f.accelEl then dropClaim e k1
  else if f = k.fee then k
  else compute e k1

/-- Both axes are ACTIVE and within the on-source window (R18). -/
def onSourceNow (e : Env) (k : Core) : Bool :=
  let near (r : AxisRec) : Bool :=
    r.state = .active && decide (absInt (r.lastDemand - readingOf r) ≤ micro e.setup.secB.window)
  near k.axes.az && near k.axes.el

/-- The on-source second (R18). -/
def countOnSource (e : Env) (k : Core) : Core :=
  if onSourceNow e k then
    { k with axes := { k.axes with onSourceTimer := min onSourceMs (k.axes.onSourceTimer + controlMs) } }
  else { k with axes := { k.axes with onSourceTimer := 0, onSource := false } }

/-- The stow unit's tests of a control interval, once the stow state is derived (R48, R53 to R56). -/
def stowTests (e : Env) (k : Core) : Core :=
  let k1 := settlePinFeedback e k
  if e.setup.configured then driveInTest (arrivalTest e (pinTests e k1)) else k1

/-- The work of a control interval after its time has passed, in an order that the spec leaves open: the sampling before
the axis work (DESIGN CHOICE, log 68); the encoder reads before the stow unit's tests, so that a fault that takes RELEASING back to PINNING (R57) meets R54's test in the same interval
(DESIGN CHOICE, log 61); the loads and the claim before them (DESIGN CHOICE, log 55). -/
def intervalWork (x : Samples) (s : State) : State :=
  let s1 := readEncoders x (sampleAll x s)
  let k := takeLoads s1.env (s.core.fee.claim.state = .active) (computeAxes s1.env s1.core)
  { s1 with core := stowTests s1.env (countOnSource s1.env k) }

/-- The ms to the end of the present control interval. -/
def toIntervalEnd (now : Nat) : Nat := controlMs - now % controlMs

/-- A whole control interval: its time passes, then its work is done. -/
def controlInterval (x : Samples) (s : State) : State := intervalWork x (advance (toIntervalEnd s.env.now) s)

end Sys2Proof.Machine
end

