-- ==== Sys2Proof/Machine/AxisEvents.lean ====
section
/-! DEFINITION. What a sampled level or a timer sets off at an axis or the pin: brake feedback and timeouts (R3, R4, R7), idle braking (R8), follow error (R15), encoder recovery (R16), limit switches and the amplifier fault (R17), on-source (R18), pin inputs (R48). -/

namespace Sys2Proof.Machine

/-- The brake feedback of an axis as stored. -/
def withBrake (i : Axis) (released : Bool) (n : Inputs) : Inputs :=
  match i with
  | .az => { n with azReleased := released }
  | .el => { n with elReleased := released }

/-- A hard limit switch of an axis as stored. -/
def withLimit (i : Axis) (upper active : Bool) (n : Inputs) : Inputs :=
  match i, upper with
  | .az, false => { n with azLow := active }
  | .az, true => { n with azHigh := active }
  | .el, false => { n with elLow := active }
  | .el, true => { n with elHigh := active }

/-- The state with other inputs. -/
def withInputs (n : Inputs) (s : State) : State := { s with env := { s.env with inputs := n } }

/-- The brake timer of an axis has expired (R3, R4). -/
def brakeExpired (r : AxisRec) : Bool := expired r.brakeTimer (brakeLimit r.state)

/-- Brake-released feedback reaches an UNBRAKING axis in time: it is ACTIVE with its target (R3), and a claim whose axes
are now all ACTIVE may be admitted (R151, R153). -/
def takeReleased (e : Env) (i : Axis) (k : Core) : Core :=
  let r := getAxis k i
  if r.state = .unbraking ∧ brakeExpired r = false then testAdmission e (putAxis k i (activeWith k r r.target true))
  else k

/-- A BRAKED axis record after its brake has engaged: amplifier disabled, rate demand 500 (R4). -/
def engagedAxis (r : AxisRec) : AxisRec :=
  { r with state := .braked, engaging := false, brakeTimer := none, followTimer := 0, phase := .rest, load := 0, duty := 500 }

/-- Brake-engaged feedback reaches an engaging axis in time: it is BRAKED, and a target kept with release pending is then
released (R4, R2). -/
def takeEngaged (e : Env) (i : Axis) (k : Core) : Core :=
  let r := getAxis k i
  if r.state = .stopping ∧ r.engaging ∧ brakeExpired r = false then tryRelease e i (putAxis k i (engagedAxis r)) else k

/-- A fault cause of an axis: its condition goes ACTIVE and the axis enters FAULT (R5). -/
def axisCause (e : Env) (c : Cond) (i : Axis) (k : Core) : Core := faultAxis e i (raiseCond c k)

/-- The brake timer expires in UNBRAKING or while engaging (R3, R4). -/
def brakeTimeout (e : Env) (i : Axis) (k : Core) : Core :=
  if brakeExpired (getAxis k i) then axisCause e (.brake i) i k else k

/-- Brake feedback has disagreed for 500 ms (R7). -/
def brakeMismatch (e : Env) (i : Axis) (k : Core) : Core :=
  if persistMs ≤ (getAxis k i).mismatchTimer then axisCause e (.brake i) i k else k

/-- An ACTIVE axis has held for the idle-brake time (R8). -/
def idleExpiry (e : Env) (i : Axis) (k : Core) : Core :=
  if (getAxis k i).state = .active ∧ expired (getAxis k i).idleTimer (idleLimit e) then enterStopping i k else k

/-- A follow error has lasted 500 ms; the cause ends on the entry to FAULT (R5, R15). -/
def followTimeout (e : Env) (i : Axis) (k : Core) : Core :=
  if persistMs ≤ (getAxis k i).followTimer then endCond (.follow i) (axisCause e (.follow i) i k) else k

/-- The tenth good read in a row becomes the encoder reading (R16), in an ENCODER_RECOVERED of its own after the control
interval that made the read, so that the stow unit's tests see it from the next interval on (DESIGN CHOICE, log 67). -/
def recoverEncoder (i : Axis) (k : Core) : Core :=
  let r := getAxis k i
  if r.encoderFault ∧ goodReads ≤ r.recovery then
    endCond (.encoder i) (putAxis k i { r with reading := r.answered, encoderFault := false })
  else k

/-- A hard limit switch becomes active (R17). -/
def limitSwitch (i : Axis) (upper : Bool) (s : State) : State :=
  let s1 := withInputs (withLimit i upper true s.env.inputs) s
  { s1 with core := axisCause s1.env (.limit i) i s1.core }

/-- An axis that the amplifier fault input faults (R17). -/
def usesAmp (r : AxisRec) : Bool := ampEnabled r

/-- The amplifier fault input is asserted; PARKED does not act on it and keeps the level it has (R17, R27; log 64). -/
def ampFault (s : State) : State :=
  if s.core.stow.park = .parked then s
  else
    let s1 := withInputs { s.env.inputs with ampFault := true } s
    let f (i : Axis) (k : Core) : Core := if usesAmp (getAxis k i) then faultAxis s1.env i k else k
    { s1 with core := f .el (f .az (raiseCond .ampFault s1.core)) }

/-- One second within the on-source window (R18). -/
def setOnSource (k : Core) : Core :=
  if onSourceMs ≤ k.axes.onSourceTimer then { k with axes := { k.axes with onSource := true } } else k

/-- The filter of a pin input. -/
def pinFilter (n : Inputs) : PinInput → Filter
  | .engaged => n.pinEngaged
  | .retracted => n.pinRetracted

/-- A filter that is ready is taken at its level. -/
def takeFilter (f : Filter) : Filter := if filterReady pinFilterMs f then { f with taken := some f.level } else f

/-- Every pin input that has shown one level for 50 ms is taken: two that are ready at one sample are taken together
(R48; log 25). -/
def takePinFilters (n : Inputs) : Inputs :=
  { n with pinEngaged := takeFilter n.pinEngaged, pinRetracted := takeFilter n.pinRetracted }

/-- A pin input that has shown one level for 50 ms is taken, and the stow unit tests the pin (R48, R54 to R56). -/
def takePin (p : PinInput) (s : State) : State :=
  if filterReady pinFilterMs (pinFilter s.env.inputs p) then
    let s1 := withInputs (takePinFilters s.env.inputs) s
    let k := settlePinFeedback s1.env s1.core
    { s1 with core := if s1.env.setup.configured then pinTests s1.env k else k }
  else s

end Sys2Proof.Machine
end

