-- ==== Sys2Proof/Machine/Orders.lean ====
section
/-! DEFINITION. Orders: scope, form and result (chapter 9), and what the orders' owners do (R21 to R25, R63 to R68, R92, R175, R176); and the receiver's reading of a whole frame (R112, R114, R188). The owners of LOCK, UNLOCK and RELEASE stand with the lockout list. -/

namespace Sys2Proof.Machine

/-! ## The route of an order (R161 to R167) -/

/-- The most argument bytes an order frame can carry behind its four first bytes (R112). -/
def argsMax : Nat := orderLengthMax - 4

/-- A console number (R114). -/
def isConsole (b : Byte) : Bool := inRange 224 239 b.toNat

/-- The scope includes this station (R162). -/
def inScope (a : SecA) (o : Order) : Bool :=
  match o.scope.toNat with
  | 1 => o.number.toNat == a.station
  | 2 => inRange 1 15 o.number.toNat && o.number.toNat == a.subarray
  | 3 => inRange 1 15 o.number.toNat && o.number.toNat == a.feeder
  | 4 => true
  | _ => false

/-- The scope is STATION. -/
def stationScope (o : Order) : Bool := o.scope.toNat == 1

/-- The result of an order in the result slot (R167), with the request of an order scoped STATION (R114). -/
def giveResult (o : Order) (c : Code) (s : State) : State :=
  { s with
    slot := { tag := o.tag, console := o.console, code := c }
    core := if stationScope o then request .normal s.core else s.core }

/-- The order's frame is too long for an order, so that the receiver discards it (R112). -/
def tooLong (o : Order) : Bool := decide (argsMax < o.args.length)

/-- The order reaches its owner or is refused for its form: read by the receiver, from a console, after configuration
has completed, and in scope (R114, R162, R163). -/
def orderTaken (o : Order) (s : State) : Bool :=
  match s.env.setup.secA with
  | none => false
  | some a => !tooLong o && isConsole o.console && s.env.setup.configured && inScope a o

/-- What the reception of an order's frame does, whatever becomes of the order (R112, R114, R117). -/
def hearOrder (o : Order) (s : State) : State :=
  if !receiving s.env then s
  else if tooLong o then { s with core := discard s.env s.core }
  else if isConsole o.console then { s with core := hearOther s.env s.core }
  else s

/-- An order on its way: heard, tested for scope and form, handed to its owner, its result written in the same step. -/
def takeOrder {α : Type} (o : Order) (parse : List Byte → Option α) (act : α → State → State × Code) (s : State) : State :=
  if orderTaken o s then
    match parse o.args with
    | none => giveResult o .argument (hearOrder o s)
    | some a =>
      let r := act a (hearOrder o s)
      giveResult o r.2 r.1
  else hearOrder o s

/-- An owner that acts on the blocks of the core alone. -/
def onCore {α : Type} (f : α → Env → Core → Core × Code) (a : α) (s : State) : State × Code :=
  let r := f a s.env s.core
  ({ s with core := r.1 }, r.2)

/-! ## POINT (R21 to R23) -/

/-- The distance of an azimuth from the soft range. -/
def rangeGap (lo hi c : Int) : Int := if c < lo then lo - c else if hi < c then c - hi else 0

/-- Of two azimuths within the soft limits, the one to take: nearer the present position, then nearer 0, then positive. -/
def betterInside (x c d : Int) : Int :=
  if absInt (d - x) < absInt (c - x) then d
  else if absInt (d - x) = absInt (c - x) ∧ (absInt d < absInt c ∨ (absInt d = absInt c ∧ c < d)) then d
  else c

/-- Of two azimuths outside them: nearer the soft range, then nearer the present position, then the
positive one. Where not exactly one of the two is positive, which R22 leaves open, it is the greater (DESIGN CHOICE,
log 58). -/
def betterOutside (lo hi x c d : Int) : Int :=
  if rangeGap lo hi d < rangeGap lo hi c then d
  else if rangeGap lo hi d = rangeGap lo hi c
      ∧ (absInt (d - x) < absInt (c - x) ∨ (absInt (d - x) = absInt (c - x) ∧ c < d)) then d
  else c

/-- A position formed by R22, and whether it was clamped or raised. -/
structure Position where
  p : Int
  clamped : Bool
  deriving DecidableEq, Repr

/-- The best of a list of candidates. -/
def bestOf (better : Int → Int → Int) : List Int → Option Int
  | [] => none
  | c :: cs => some (cs.foldl better c)

/-- The azimuth turn of R22, in µdeg; `a` is the argument in µdeg. -/
def azimuthTurn (lo hi x a : Int) : Position :=
  let cs := [a - 360000000, a, a + 360000000]
  match bestOf (betterInside x) (cs.filter fun c => inRangeInt lo hi c) with
  | some c => { p := c, clamped := false }
  | none =>
    match bestOf (betterOutside lo hi x) cs with
    | some c => { p := clampInt lo hi c, clamped := true }
    | none => { p := clampInt lo hi a, clamped := true }

/-- The elevation of R22, in µdeg: clamped to its range, raised to the clearance elevation where that restricts. -/
def elevationPlace (e : Env) (a : Int) : Position :=
  let c := clampInt (softLow e .el) stowAngle a
  let r := if clearanceApplies e then max c (clearanceElevation e) else c
  { p := r, clamped := decide (r ≠ a) }

/-- The arguments POINT's owner refuses (R21). -/
def pointOutOfRange (e : Env) (a : PointArgs) : Bool :=
  !inRangeInt 0 359999 a.azimuth || decide ((e.setup.secB.trackBand : Int) < absInt a.azRate)
    || decide ((e.setup.secB.trackBand : Int) < absInt a.elRate)

/-- The first test of R21 that refuses a POINT, if one does. -/
def pointRefusal (e : Env) (a : PointArgs) (k : Core) : Option Code :=
  if pointBlocked e.list then some .locked
  else if !(k.stow.state = .clear) then some .stowing
  else if someFault k then some .fault
  else if pointOutOfRange e a then some .argument
  else none

/-- The target of an axis: SLEW where both rates are 0, otherwise TRACK with the order's epoch (R22). -/
def pointTarget (a : PointArgs) (epoch : Nat) (p rate : Int) : Target :=
  if a.azRate = 0 ∧ a.elRate = 0 then .slew p else .track p rate epoch

/-- The azimuth and the elevation that an accepted POINT forms (R22). -/
def pointAzimuth (e : Env) (a : PointArgs) (k : Core) : Position :=
  azimuthTurn (softLow e .az) (softHigh e .az) k.axes.az.x (micro a.azimuth)

def pointElevation (e : Env) (a : PointArgs) : Position := elevationPlace e (micro a.elevation)

/-- The request for headroom that the axes' demands call for (R23). -/
def slewClaim (e : Env) (k : Core) : Core := requestClaim e .slew (mustAccelerate e k .az) (mustAccelerate e k .el) k

/-- A POINT order (R21 to R23). -/
def pointOrder (a : PointArgs) (e : Env) (k : Core) : Core × Code :=
  match pointRefusal e a k with
  | some c => (k, c)
  | none =>
    let az := pointAzimuth e a k
    let el := pointElevation e a
    let k1 := giveTarget e .az (pointTarget a e.now az.p a.azRate) k
    let k2 := giveTarget e .el (pointTarget a e.now el.p a.elRate) k1
    (slewClaim e k2, if az.clamped || el.clamped then .clamped else .done)

/-! ## HOLD and BRAKE (R24, R25) -/

/-- A HOLD order (R24). -/
def holdOrder (e : Env) (k : Core) : Core × Code :=
  if !(k.stow.state = .clear) then (k, .stowing)
  else (withdrawWaiting e (clearPending .el (clearPending .az (takeHold .el (takeHold .az k)))), .done)

/-- The stow states in which BRAKE is refused (R25). -/
def stowUnderWay : StowState → Bool
  | .demanded | .moving | .pinning | .releasing => true
  | _ => false

/-- An axis at rest with no release pending. -/
def atRest (r : AxisRec) : Bool := (r.state = .braked || r.state = .fault) && !r.releasePending

/-- A BRAKE order (R25). -/
def brakeOrder (e : Env) (k : Core) : Core × Code :=
  if stowUnderWay k.stow.state then (k, .stowing)
  else if atRest k.axes.az && atRest k.axes.el then (k, .done)
  else (withdrawWaiting e (clearPending .el (clearPending .az (enterStopping .el (enterStopping .az k)))), .done)

/-! ## STOW, UNSTOW, QUIET, WAKE (R63 to R68) -/

/-- A STOW order (R63). -/
def stowOrder (e : Env) (k : Core) : Core × Code := (updateCauses e { k.stow.causes with console := true } k, .done)

/-- An UNSTOW order (R63, R64); refused or accepted, it wakes a PARKED station (R66). -/
def unstowOrder (e : Env) (k : Core) : Core × Code :=
  let k1 := wakeEvent k
  let c := unstowTest e k1
  if c = .done ∧ ¬(k1.stow.state = .clear) then (actUnstow e (dropConsole k1), .done) else (k1, c)

/-- A QUIET order (R65). -/
def quietOrder (e : Env) (k : Core) : Core × Code :=
  if mayPark e k then ({ k with stow := { k.stow with park := .parked } }, .done) else (k, .state)

/-- A WAKE order (R68). -/
def wakeOrder (k : Core) : Core × Code := (wakeEvent k, .done)

/-! ## HEAT, CLEAR, PROVE (R92, R175, R176) -/

/-- A HEAT order (R92). -/
def heatOrder (m : HeatMode) (e : Env) (k : Core) : Core × Code :=
  if k.heat.mode = m then (k, .done) else (evaluateHeat e { k with heat := { k.heat with mode := m } }, .done)

/-- The HEAT-class conditions differ between two condition units. -/
def heatCondsDiffer (u v : CondUnit) : Bool :=
  allConds.any fun c => classOf c = .heat && !(condAt u c = condAt v c)

/-- Step 1 of CLEAR, with one evaluation where HEAT conditions are cleared, however many they are
(R175, R95, R170; DESIGN CHOICE, log 63). -/
def clearConditions (classes : BitVec 6) (e : Env) (k : Core) : Core :=
  let k1 := { k with cond := clearLatched classes k.cond }
  if heatCondsDiffer k.cond k1.cond then evaluateHeat e k1 else k1

/-- Step 3 of CLEAR: FAILED is re-evaluated where no axis is in FAULT and PIN_FEEDBACK has no cause (R62, R175). -/
def clearFailed (e : Env) (k : Core) : Core :=
  if k.stow.state = .failed ∧ someFault k = false ∧ isActive k .pinFeedback = false then reevaluate e k else k

/-- A CLEAR order (R175). -/
def clearOrder (classes : BitVec 6) (e : Env) (k : Core) : Core × Code :=
  let k1 := clearConditions classes e k
  if inClassSet .drive classes then (clearFailed e (returnAxis e .el (returnAxis e .az k1)), .done) else (k1, .done)

/-- A PROVE order: whether it names WIND, whether FEEDBACK (R42, R176). -/
def proveOrder (t : Bool × Bool) (s : State) : State × Code :=
  if mayProve s.env s.core then
    ({ s with
        env := if t.1 then { s.env with wind := startWindProof s.env.setup.secC s.env.wind } else s.env
        core :=
          if t.2 then { s.core with cond := { s.core.cond with proof := some startFeedbackProof } } else s.core },
      .done)
  else (s, .busy)

/-! ## The orders as rows, and a frame as the receiver takes it (R112, R114, R165, R188) -/

/-- No argument form belongs to an order without a defined kind (R164). -/
def noForm (_ : List Byte) : Option Unit := none

def takePoint (o : Order) : State → State := takeOrder o pointArgs (onCore pointOrder)
def takeHoldOrder (o : Order) : State → State := takeOrder o noArgs (onCore fun _ => holdOrder)
def takeBrake (o : Order) : State → State := takeOrder o noArgs (onCore fun _ => brakeOrder)
def takeStow (o : Order) : State → State := takeOrder o noArgs (onCore fun _ => stowOrder)
def takeUnstow (o : Order) : State → State := takeOrder o noArgs (onCore fun _ => unstowOrder)
def takeQuiet (o : Order) : State → State := takeOrder o noArgs (onCore fun _ => quietOrder)
def takeWake (o : Order) : State → State := takeOrder o noArgs (onCore fun _ _ => wakeOrder)
def takeLock (o : Order) : State → State := takeOrder o lockKindArg fun k => lockOrder k o.console.toNat
def takeUnlock (o : Order) : State → State := takeOrder o lockKindArg fun k => unlockOrder k o.console.toNat
def takeReleaseOrder (o : Order) : State → State := takeOrder o noArgs fun _ => releaseOrder
def takeHeat (o : Order) : State → State := takeOrder o heatModeArg (onCore heatOrder)
def takeClear (o : Order) : State → State := takeOrder o classSetArg (onCore clearOrder)
def takeProve (o : Order) : State → State := takeOrder o proofTargetArg proveOrder

/-- An order without a defined kind: refused for its form where it is taken (R164). -/
def takeUndefined (o : Order) : State → State := takeOrder o noForm fun _ s => (s, .argument)

/-- An order handed to the owner of the kind that its fourth payload byte names (R165, 12.3). -/
def takeKind (kind : Byte) (o : Order) : State → State :=
  match kind.toNat with
  | 1 => takePoint o
  | 2 => takeHoldOrder o
  | 3 => takeBrake o
  | 4 => takeStow o
  | 5 => takeUnstow o
  | 6 => takeQuiet o
  | 7 => takeWake o
  | 8 => takeLock o
  | 9 => takeUnlock o
  | 10 => takeReleaseOrder o
  | 11 => takeHeat o
  | 12 => takeClear o
  | 13 => takeProve o
  | _ => takeUndefined o

/-- An order frame's origin and payload, every field taken from its place (12.3, R188). -/
def takePayload (console : Byte) (payload : List Byte) : State → State :=
  takeKind (kindAt payload) (orderAt console payload)

/-- A frame as the receiver read it: discarded where a check of R112 fails, otherwise taken by its kind and origin,
whatever its priority (R114, R188). -/
def takeFrame (f : RawFrame) (s : State) : State :=
  if frameIntact f = false then { s with core := discard s.env s.core }
  else if kindOfFrame f = beaconKind then takeBeacon (originOfFrame f) f.payload s
  else if kindOfFrame f = orderKind then takePayload (originOfFrame f) f.payload s
  else s

end Sys2Proof.Machine
end

