-- ==== Sys2Proof/Machine/Start.lean ====
section
/-! DEFINITION. Resets (11.2), the start sequence (11.3), and the configuration image's sections as they are read (11.1). -/

namespace Sys2Proof.Machine

/-! ## Entry to reset (R183) -/

/-- The line port in reset: the line is released, a frame in flight is gone (R106). -/
def lineInReset (l : LinePort) : LinePort := { l with frame := none, tx := if driving l then .idle else l.tx }

/-- Entry to reset with the retained store as the reset leaves it (R183). -/
def enterReset (st : Store) (s : State) : State :=
  { s with
    inReset := true, store := st, outputs := safeOutputs, core := { s.core with line := lineInReset s.core.line } }

/-- The RESET input has been asserted for so many ms; a pulse shorter than 1 ms is ignored (R183). -/
def assertReset (ms : Nat) (cuts : ItemCuts) (cutEmptying : Bool) (s : State) : State :=
  if resetMs ≤ ms then enterReset (cutWrites cuts cutEmptying s.store) s else s

/-- A supply failure of so many ms loses the retained store: within the hold-up time it does not, beyond it it does, but
for one that is close to it, which may end either way (R183; log 12). -/
def storeLost (ms : Nat) (lost : Bool) : Bool :=
  decide (holdUpMs < ms) && (lost || decide (holdUpMs + Config.holdUpSpread < ms))

/-- The supply fails for so many ms (R78, R183). -/
def failSupply (ms : Nat) (lost : Bool) (cuts : ItemCuts) (cutEmptying : Bool) (s : State) : State :=
  enterReset (if storeLost ms lost then lostStore else cutWrites cuts cutEmptying s.store) s

/-! ## The start instant (R184 steps 1 and 2) -/

/-- The acting blocks at the start instant of a warm start: the heat mode and CONSOLE as retained (R47, R87). -/
def warmCore (st : Store) : Core :=
  { startCore with
    heat := { startHeater with mode := st.heat }
    stow := { startStow with causes := { noCauses with console := st.console } } }

/-- A warm start: the list rebuilt, the UNCERTAIN records written (R81). -/
def warmStart (s : State) : State :=
  let ls := rebuildList s.store
  { s with
    inReset := false
    env := { startEnv with list := ls }
    core := warmCore s.store
    store := storeAfterRebuild ls s.store
    slot := startSlot
    outputs := safeOutputs }

/-- A power-on: the store emptied and made valid, the cold record placed (R76, R78). -/
def powerOn (s : State) : State :=
  setOwned .point .system
    { s with
      inReset := false, env := startEnv, core := startCore, store := emptyStore, slot := startSlot,
      outputs := safeOutputs }

/-- The start instant: the retained store decides the kind of start (R78, R183, R184). -/
def startInstant (s : State) : State := if storeGood s.store then warmStart s else powerOn s

/-! ## Sections (R180 to R182, R184 step 3) -/

/-- The settings with a section dealt with, and the loader at the next one. -/
def nextSection : SectionId → Option SectionId
  | .a => some .b
  | .b => some .c
  | .c => some .d
  | .d => none

/-- The settings changed. -/
def withSetup (p : Setup) (s : State) : State := { s with env := { s.env with setup := p } }

/-- A failed section: its condition, and the system record (R77, R180). -/
def failSection (x : SectionId) (s : State) : State :=
  setOwned .all .system { s with core := raiseCond (.sectionFailed x) s.core }

/-- Section A failed: the transmitter is SILENT, the station has no identity (R116, R181). -/
def silenceIdentity (k : Core) : Core := { k with line := { k.line with tx := .silent, silence := .identity } }

/-- Section A read (R180, R181). -/
def loadA (bytes : List Byte) (s : State) : State :=
  match parseA bytes with
  | some a => withSetup { s.env.setup with secA := some a, statusA := .installed } s
  | none =>
    let s1 := withSetup { s.env.setup with statusA := .failed } s
    failSection .a { s1 with core := silenceIdentity s1.core }

/-- Section B read (R180, R182). -/
def loadB (bytes : List Byte) (s : State) : State :=
  match parseB bytes with
  | some b => withSetup { s.env.setup with secB := b, statusB := .installed } s
  | none => failSection .b (withSetup { s.env.setup with statusB := .failed } s)

/-- The first wind bin begins (R28, R184). -/
def beginBins (s : State) : State := { s with env := { s.env with wind := { s.env.wind with binClock := some 0 } } }

/-- Section C read: the first bin begins; installed, the account computes and the budgets are compared (R28, R137, R148,
R180, R182). -/
def loadC (bytes : List Byte) (s : State) : State :=
  match parseC bytes with
  | some c =>
    let s1 := beginBins (withSetup { s.env.setup with secC := c, statusC := .installed } s)
    { s1 with core := handFeeder s1.env s1.core }
  | none => beginBins (failSection .c (withSetup { s.env.setup with statusC := .failed } s))

/-- Every section has been installed. -/
def allInstalled (p : Setup) : Bool :=
  p.statusA = .installed && p.statusB = .installed && p.statusC = .installed && p.statusD = .installed

/-- Every section good: a retained (ALL, SYSTEM) or UNCERTAIN system record becomes the cold record (R77, R84). -/
def restoreCold (s : State) : State :=
  if allInstalled s.env.setup ∧ (systemRecord s.env.list).isSome then setOwned .point .system s else s

/-- Section D read: the masks are settled, and installed, the heater cycles begin (R97, R102, R169, R180). -/
def loadD (bytes : List Byte) (s : State) : State :=
  match parseD bytes with
  | some d =>
    let s1 := withSetup { s.env.setup with secD := d, statusD := .installed } s
    let k := settleMasks d.masks d.alarm s1.core
    restoreCold { s1 with core := { k with heat := beginCycles s1.env k.heat } }
  | none =>
    let s1 := failSection .d (withSetup { s.env.setup with statusD := .failed } s)
    { s1 with core := settleMasks 0 defaultAlarmMask s1.core }

/-- The loader has read the section it was at, and goes on to the next (R180). -/
def loadSection (bytes : List Byte) (s : State) : State :=
  match s.env.setup.loading with
  | none => s
  | some x =>
    let s1 := withSetup { s.env.setup with loading := nextSection x } s
    match x with
    | .a => loadA bytes s1
    | .b => loadB bytes s1
    | .c => loadC bytes s1
    | .d => loadD bytes s1

/-! ## Completion (R185 steps 5 to 7) -/

/-- The encoders are read and each pin input has been taken: the stow state can be derived. -/
def mayComplete (e : Env) : Bool :=
  !e.setup.configured && e.setup.encodersRead && e.inputs.pinEngaged.taken.isSome && e.inputs.pinRetracted.taken.isSome

/-- The derived stow state (R47). -/
def derivedStow (e : Env) (k : Core) : StowState :=
  if pinEngaged e && !pinRetracted e && inWindow k then .stowed
  else if pinIsIn e then .clear
  else .failed

/-- The stow state derived, with the conditions it brings; it issues no stop request and no request of its own. -/
def deriveStow (e : Env) (k : Core) : Core :=
  let k1 := { k with stow := { k.stow with state := derivedStow e k } }
  syncStowFailed (if derivedStow e k = .failed then raiseCond .pinFeedback k1 else k1)

/-- The isolation timer starts, unless section A has failed (R116, R117). -/
def startIsolation (e : Env) (k : Core) : Core :=
  if receiving e then { k with line := { k.line with isolationTimer := some 0 } } else k

/-- Configuration completes (R185). -/
def completeConfiguration (s : State) : State :=
  if mayComplete s.env then
    let s1 := withSetup { s.env.setup with configured := true } s
    let k := startIsolation s1.env (request .normal (deriveStow s1.env s1.core))
    { s1 with
      core := if k.stow.state = .clear ∧ ¬(k.stow.causes = noCauses) then demandStow s1.env k else k }
  else s

end Sys2Proof.Machine
end

