-- ==== Sys2Proof/Machine/Run.lean ====
section
/-! DEFINITION. What stands around every command: nothing reaches a station held in reset; after a command's own work the beacon interval, the retained store's two items and the outputs follow the blocks. Also the commands of the station's own timers and samples that have fallen due (log 2). -/

namespace Sys2Proof.Machine

/-! ## Outputs (11.4) -/

/-- The outputs of the blocks as they stand (1.2, R14, R47, R55, R65, R98, R174). -/
def outputsOf (e : Env) (k : Core) : Outputs :=
  { azDuty := if ampEnabled k.axes.az then k.axes.az.duty else 500
    elDuty := if ampEnabled k.axes.el then k.axes.el.duty else 500
    azEnable := ampEnabled k.axes.az
    elEnable := ampEnabled k.axes.el
    azBrake := brakeEnergised k.axes.az
    elBrake := brakeEnergised k.axes.el
    pin := k.stow.pin
    zones := fourMap (fun z => z.on) k.heat.zones
    alarm := if e.setup.configured then alarmLevel k.cond else true
    stowed := e.setup.configured && k.stow.state = .stowed
    encoderPower := !(k.stow.park = .parked)
    lineDriven := driving k.line
    synthetic := e.wind.proof.isSome }

/-- The outputs follow the blocks. -/
def drive (s : State) : State := { s with outputs := outputsOf s.env s.core }

/-! ## Around a command -/

/-- After a command's work: the interval in force (R118), the heat mode and CONSOLE presence in the store (R78), the
outputs. `old` is the interval in force before. -/
def settle (old : Nat) (s : State) : State :=
  let k := followInterval old s.env s.core
  drive { s with core := k, store := syncStore k s.store }

/-- The interval in force of a state. -/
def intervalOf (s : State) : Nat := intervalInForce s.env s.core

/-- A command's work on a station that is not held in reset (R183). -/
def work (f : State → State) (s : State) : State := if s.inReset then s else settle (intervalOf s) (f s)

/-- The outcome of every command: the next state. -/
def run (f : State → State) (s : State) : Host.Outcome State Fault Refusal := .next (work f s)

/-- Work on the acting blocks alone. -/
def onBlocks (f : Env → Core → Core) (s : State) : State := { s with core := f s.env s.core }

/-! ## What has fallen due -/

/-- A list with one command where a test holds. -/
def dueIf (b : Bool) (i : Instr) : List Instr := if b then [i] else []

/-- The due commands of an axis (R3, R4, R7, R8, R15, R16, R17). Brake feedback is seen at a sample that counts since the
brake timer started, during a feedback proof an even one (R178). R3 and R4 take the feedback as stored, even where the
comparing element is stuck (DESIGN CHOICE, log 69). -/
def dueAxis (e : Env) (k : Core) (i : Axis) : List Instr :=
  let r := getAxis k i
  let fresh (c : Cond) : Bool := !(isActive k c) || !(r.state = .fault)
  let low := match i with
    | .az => e.inputs.azLow
    | .el => e.inputs.elLow
  dueIf (limitActive e i && fresh (.limit i)) (.limitSwitch i (!low))
  ++ dueIf (decide (persistMs ≤ r.followTimer)) (.followTimeout i)
  ++ dueIf (decide (persistMs ≤ r.mismatchTimer) && fresh (.brake i)) (.brakeMismatch i)
  ++ dueIf (r.state = .unbraking && r.brakeSeen && brakeReleased e i && !brakeExpired r) (.brakeReleasedFeedback i)
  ++ dueIf (r.state = .stopping && r.engaging && r.brakeSeen && !brakeReleased e i && !brakeExpired r)
      (.brakeEngagedFeedback i)
  ++ dueIf (brakeExpired r) (.brakeTimeout i)
  ++ dueIf (r.state = .active && expired r.idleTimer (idleLimit e)) (.idleBrakeExpiry i)
  ++ dueIf (r.encoderFault && decide (goodReads ≤ r.recovery)) (.encoderRecovered i)

/-- The due commands of the amplifier fault input, the pin and the stow unit. -/
def dueStow (e : Env) (k : Core) : List Instr :=
  let pin (p : PinInput) : List Instr :=
    let f := pinFilter e.inputs p
    dueIf (filterReady pinFilterMs f && !(f.taken = some f.level)) (.pinInputTaken p)
  dueIf (e.inputs.ampFault && !(k.stow.park = .parked)
      && (!isActive k .ampFault || usesAmp k.axes.az || usesAmp k.axes.el)) .ampFaultInput
  ++ pin .engaged ++ pin .retracted
  ++ dueIf ((k.stow.state = .pinning || k.stow.state = .releasing)
      && expired k.stow.pinTimer (e.setup.secB.pinLimit * 1000)) .pinTimeout
  ++ dueIf (expired k.stow.holdTimer (e.setup.secC.releaseHold * 60000)) .releaseHoldExpiry
  ++ dueIf (k.stow.park = .waking && expired k.stow.settleTimer e.setup.secB.wakeSettle) .wakeSettleEnd
  ++ dueIf (decide (onSourceMs ≤ k.axes.onSourceTimer) && !k.axes.onSource) .onSourceSet

/-- The due commands of the wind watch and the feeder account. -/
def dueWind (e : Env) (k : Core) : List Instr :=
  dueIf (expired e.wind.binClock binMs) (.binEnd 0)
  ++ dueIf (expired e.wind.grace (graceMs e)) .graceExpiry
  ++ dueIf (k.fee.claim.state = .waiting && claimSettled e k.fee.claim && !k.fee.claim.settled) .settleIntervalEnd
  ++ dueIf (expired k.fee.fill (graceMs e)) .fillTimeEnd
  ++ dueIf (k.fee.claim.state = .waiting && hasBudget e && mustForce e k) .stowWaitLimit

/-- The due commands of the lockout list. -/
def dueList (e : Env) (st : Store) : List Instr :=
  (allFour.flatMap fun n =>
    let f := fourGet e.inputs.keys n
    dueIf (e.setup.secA.isSome && filterReady pinFilterMs f && !(f.taken = some f.level)) (.keyTaken n))
  ++ dueIf (match st.writing with
      | none => false
      | some (_, t) => decide (writeMs ≤ t)) .recordWriteEnd

/-- A zone's cycle start has come (R97). -/
def cycleDue (e : Env) (z : Zone) : Bool :=
  heaterRuns e && match z.untilFirst with
    | some n => n == 0
    | none => decide (cyclePeriod e ≤ z.phase)

/-- The due commands of the heater unit. -/
def dueHeat (e : Env) (k : Core) : List Instr :=
  let sensor (x : Sensor) : List Instr :=
    dueIf (decide (failedPolls ≤ sensorFails k.heat x) && !isActive k (sensorCond x)) (.sensorFault x)
  (allFour.flatMap fun z => sensor (.zone z)) ++ sensor .ambient
  ++ dueIf (wetReady e k) .wetChange
  ++ dueIf (expired k.heat.memory (e.setup.secD.wetMemory * 60000)) .wetMemoryExpiry
  ++ (allFour.flatMap fun z => dueIf (cycleDue e (fourGet k.heat.zones z)) (.cycleStart z))
  ++ (allFour.flatMap fun z => dueIf (onTimeOver e (fourGet k.heat.zones z)) (.onTimeEnd z))
  ++ (allFour.flatMap fun z =>
      dueIf (fitted e z && decide (persistMs ≤ (fourGet k.heat.zones z).mismatch) && !isActive k (.zoneFeedback z))
        (.zoneFeedbackTimeout z))

/-- The due commands of the line port and the peer table. -/
def dueLine (e : Env) (k : Core) : List Instr :=
  dueIf (k.line.tx = .resting && expired k.line.restTimer restMs) .restTimerExpiry
  ++ dueIf (expired k.line.duplicateTimer duplicateMs) .duplicateTimerExpiry
  ++ dueIf (expired k.line.isolationTimer (e.setup.secC.isolation * 1000)) .isolationTimerExpiry
  ++ dueIf (intervalReached e k && !k.line.dueTaken) .beaconIntervalDue
  ++ dueIf (decide (secondMs ≤ k.line.noiseClock)) .noiseDecay
  ++ (e.peers.flatMap fun p =>
      if expiryDue p then [.peerExpiry p.station] else dueIf (p.isFresh && staleDue p) (.peerStale p.station))

/-- The due commands of the start sequence and the feedback proof. -/
def dueStart (e : Env) (k : Core) : List Instr :=
  dueIf (match k.cond.proof with
    | none => false
    | some p => decide (proofSamples ≤ p.sample)) .feedbackProofVerdict
  ++ dueIf (mayComplete e) .configurationComplete

/-- Every command that the station's own samples and timers have made due, the first to be taken at the front. -/
def dueCommands (s : State) : List Instr :=
  dueAxis s.env s.core .az ++ dueAxis s.env s.core .el ++ dueStow s.env s.core ++ dueHeat s.env s.core
    ++ dueStart s.env s.core ++ dueList s.env s.store ++ dueWind s.env s.core ++ dueLine s.env s.core

/-- What a station does with no command waiting: a command of its own that has fallen due joins the queue; otherwise 1 ms
passes, up to the last before a control interval, whose samples come from outside. In reset it stays (log 2). -/
def idle (s : State) : State :=
  if s.inReset then s
  else
    match dueCommands s with
    | i :: _ => { s with pending := [i] }
    | [] => if s.env.now % controlMs < controlMs - 1 then settle (intervalOf s) (advance 1 s) else s

end Sys2Proof.Machine
end

