-- ==== Sys2Proof/Machine/ExecAxes.lean ====
section
/-! DEFINITION. The meanings of the axis controller's commands (chapter 1). -/

namespace Sys2Proof.Machine

/-- CONTROL_INTERVAL (R9 to R18, R48, R53, R56, R72, R91, R100, R155, R177, R185). -/
def execControlInterval (x : Samples) (s : State) : Host.Outcome State Fault Refusal := run (controlInterval x) s

/-- ON_SOURCE_SET (R18). -/
def execOnSourceSet (s : State) : Host.Outcome State Fault Refusal := run (onBlocks fun _ => setOnSource) s

/-- FOLLOW_TIMEOUT (R15). -/
def execFollowTimeout (i : Axis) (s : State) : Host.Outcome State Fault Refusal :=
  run (onBlocks fun e => followTimeout e i) s

/-- BRAKE_RELEASED_FEEDBACK (R3). -/
def execBrakeReleasedFeedback (i : Axis) (s : State) : Host.Outcome State Fault Refusal :=
  run (fun s => onBlocks (fun e => takeReleased e i) (withInputs (withBrake i true s.env.inputs) s)) s

/-- BRAKE_ENGAGED_FEEDBACK (R4). -/
def execBrakeEngagedFeedback (i : Axis) (s : State) : Host.Outcome State Fault Refusal :=
  run (fun s => onBlocks (fun e => takeEngaged e i) (withInputs (withBrake i false s.env.inputs) s)) s

/-- BRAKE_TIMEOUT (R3, R4). -/
def execBrakeTimeout (i : Axis) (s : State) : Host.Outcome State Fault Refusal :=
  run (onBlocks fun e => brakeTimeout e i) s

/-- BRAKE_MISMATCH (R7). -/
def execBrakeMismatch (i : Axis) (s : State) : Host.Outcome State Fault Refusal :=
  run (onBlocks fun e => brakeMismatch e i) s

/-- IDLE_BRAKE_EXPIRY (R8). -/
def execIdleBrakeExpiry (i : Axis) (s : State) : Host.Outcome State Fault Refusal :=
  run (onBlocks fun e => idleExpiry e i) s

/-- ENCODER_RECOVERED (R16). -/
def execEncoderRecovered (i : Axis) (s : State) : Host.Outcome State Fault Refusal :=
  run (onBlocks fun _ => recoverEncoder i) s

/-- LIMIT_SWITCH (R17). -/
def execLimitSwitch (i : Axis) (upper : Bool) (s : State) : Host.Outcome State Fault Refusal :=
  run (limitSwitch i upper) s

/-- AMP_FAULT_INPUT (R17). -/
def execAmpFaultInput (s : State) : Host.Outcome State Fault Refusal := run ampFault s

end Sys2Proof.Machine
end

