-- ==== Sys2Proof/Machine/ExecFeeder.lean ====
section
/-! DEFINITION. The meanings of the feeder account's commands (chapter 8). -/

namespace Sys2Proof.Machine

/-- The settle interval of a WAITING claim has passed: the admission test is made (R151). -/
def endSettleInterval (e : Env) (k : Core) : Core :=
  if k.fee.claim.state = .waiting ∧ claimSettled e k.fee.claim ∧ k.fee.claim.settled = false then
    testAdmission e { k with fee := { k.fee with claim := { k.fee.claim with settled := true } } }
  else k

/-- The fill time ends: the admission test is made (R152). -/
def endFill (e : Env) (k : Core) : Core :=
  if expired k.fee.fill (graceMs e) then testAdmission e { k with fee := { k.fee with fill := none } } else k

/-- The wait age of a WAITING STOW claim has reached the limit (R153). -/
def waitLimit (e : Env) (k : Core) : Core := if mustForce e k then testAdmission e k else k

/-- SETTLE_INTERVAL_END (R151). -/
def execSettleIntervalEnd (s : State) : Host.Outcome State Fault Refusal := run (onBlocks endSettleInterval) s

/-- FILL_TIME_END (R152). -/
def execFillTimeEnd (s : State) : Host.Outcome State Fault Refusal := run (onBlocks endFill) s

/-- STOW_WAIT_LIMIT (R153). -/
def execStowWaitLimit (s : State) : Host.Outcome State Fault Refusal := run (onBlocks waitLimit) s

end Sys2Proof.Machine
end

