-- ==== Sys2Proof/Machine/ExecHeat.lean ====
section
/-! DEFINITION. The meanings of the heater unit's commands and of the feedback proof's verdict (chapters 5 and 10). -/

namespace Sys2Proof.Machine

/-- POLL_ROUND (R89, R90, R95). -/
def execPollRound (a : PollAnswers) (s : State) : Host.Outcome State Fault Refusal :=
  run (onBlocks fun e => pollRound e a) s

/-- SENSOR_FAULT (R90). -/
def execSensorFault (x : Sensor) (s : State) : Host.Outcome State Fault Refusal :=
  run (onBlocks fun e => sensorFault e x) s

/-- WET_CHANGE (R91). -/
def execWetChange (s : State) : Host.Outcome State Fault Refusal := run (onBlocks takeWet) s

/-- WET_MEMORY_EXPIRY (R91). -/
def execWetMemoryExpiry (s : State) : Host.Outcome State Fault Refusal := run (onBlocks endWetMemory) s

/-- CYCLE_START (R97, R98). -/
def execCycleStart (z : Fin 4) (s : State) : Host.Outcome State Fault Refusal :=
  run (onBlocks fun e => cycleStart e z) s

/-- ON_TIME_END (R98). -/
def execOnTimeEnd (z : Fin 4) (s : State) : Host.Outcome State Fault Refusal :=
  run (onBlocks fun e => onTimeEnd e z) s

/-- ZONE_FEEDBACK_TIMEOUT (R100). -/
def execZoneFeedbackTimeout (z : Fin 4) (s : State) : Host.Outcome State Fault Refusal :=
  run (onBlocks fun e => zoneFault e z) s

/-- FEEDBACK_PROOF_VERDICT (R179). -/
def execFeedbackProofVerdict (s : State) : Host.Outcome State Fault Refusal := run (onBlocks feedbackVerdict) s

end Sys2Proof.Machine
end

