-- ==== Sys2Proof/Machine/ExecLine.lean ====
section
/-! DEFINITION. The meanings of the line port's and the peer table's commands (chapters 6 and 7). -/

namespace Sys2Proof.Machine

/-- PEER_BEACON (R114, R117, R125 to R130). -/
def execPeerBeacon (origin : Byte) (payload : List Byte) (s : State) : Host.Outcome State Fault Refusal :=
  run (takeBeacon origin payload) s

/-- OWN_NUMBER_BEACON (R115). -/
def execOwnNumberBeacon (s : State) : Host.Outcome State Fault Refusal := run (onBlocks hearDuplicate) s

/-- DISCARDED_FRAME: a frame that fails a check of R112 counts as noise; one that passes them all is taken as R114 takes it
(log 22). -/
def execDiscardedFrame (f : RawFrame) (s : State) : Host.Outcome State Fault Refusal := run (takeFrame f) s

/-- STRAY (R105, R113). -/
def execStray (s : State) : Host.Outcome State Fault Refusal := run (onBlocks discard) s

/-- TRANSMISSION_START (R105, R107, R121). -/
def execTransmissionStart (gap : Nat) (s : State) : Host.Outcome State Fault Refusal :=
  run (fun s => onBlocks (fun e k => startTransmission e s.slot gap k) s) s

/-- LOST_ARBITRATION (R108). -/
def execLostArbitration (word : BitVec 15) (s : State) : Host.Outcome State Fault Refusal :=
  run (onBlocks fun e k => { k with line := loseArbitration e word k.line }) s

/-- ABORT (R108, R110). -/
def execAbort (s : State) : Host.Outcome State Fault Refusal :=
  run (onBlocks fun _ k => { k with line := beginBreak k.line }) s

/-- BREAK_END (R110). -/
def execBreakEnd (s : State) : Host.Outcome State Fault Refusal := run (onBlocks fun _ => endBreak) s

/-- REST_TIMER_EXPIRY (R111). -/
def execRestTimerExpiry (s : State) : Host.Outcome State Fault Refusal :=
  run (onBlocks fun _ k => { k with line := endRest k.line }) s

/-- BEACON_COMPLETE (R109, R120, R150). -/
def execBeaconComplete (s : State) : Host.Outcome State Fault Refusal := run (onBlocks completeBeacon) s

/-- DUPLICATE_TIMER_EXPIRY (R115). -/
def execDuplicateTimerExpiry (s : State) : Host.Outcome State Fault Refusal := run (onBlocks endDuplicate) s

/-- ISOLATION_TIMER_EXPIRY (R117). -/
def execIsolationTimerExpiry (s : State) : Host.Outcome State Fault Refusal := run (onBlocks endIsolation) s

/-- BEACON_INTERVAL_DUE (R118). -/
def execBeaconIntervalDue (s : State) : Host.Outcome State Fault Refusal := run (onBlocks takeDue) s

/-- NOISE_DECAY (R113). -/
def execNoiseDecay (s : State) : Host.Outcome State Fault Refusal := run (onBlocks fun _ => decayNoise) s

/-- PEER_STALE (R132). -/
def execPeerStale (station : Nat) (s : State) : Host.Outcome State Fault Refusal := run (markStale station) s

/-- PEER_EXPIRY (R133). -/
def execPeerExpiry (station : Nat) (s : State) : Host.Outcome State Fault Refusal := run (expirePeer station) s

end Sys2Proof.Machine
end

