-- ==== Sys2Proof/Machine/ExecLists.lean ====
section
/-! DEFINITION. The meanings of the lockout list's own commands (chapter 4). -/

namespace Sys2Proof.Machine

/-- KEY_TAKEN (R73, R82). -/
def execKeyTaken (n : Fin 4) (s : State) : Host.Outcome State Fault Refusal := run (takeKey n) s

/-- RECORD_WRITE_END (R79). -/
def execRecordWriteEnd (s : State) : Host.Outcome State Fault Refusal :=
  run (fun s => { s with store := endWrite s.env.list s.store }) s

end Sys2Proof.Machine
end

