-- ==== Sys2Proof/Machine/ExecOrders.lean ====
section
/-! DEFINITION. The meanings of the orders (chapter 9 and the owners' chapters). -/

namespace Sys2Proof.Machine

/-- POINT (R21 to R23). -/
def execPoint (o : Order) (s : State) : Host.Outcome State Fault Refusal := run (takePoint o) s

/-- HOLD (R24). -/
def execHold (o : Order) (s : State) : Host.Outcome State Fault Refusal := run (takeHoldOrder o) s

/-- BRAKE (R25). -/
def execBrake (o : Order) (s : State) : Host.Outcome State Fault Refusal := run (takeBrake o) s

/-- STOW (R63). -/
def execStow (o : Order) (s : State) : Host.Outcome State Fault Refusal := run (takeStow o) s

/-- UNSTOW (R63, R64). -/
def execUnstow (o : Order) (s : State) : Host.Outcome State Fault Refusal := run (takeUnstow o) s

/-- QUIET (R65). -/
def execQuiet (o : Order) (s : State) : Host.Outcome State Fault Refusal := run (takeQuiet o) s

/-- WAKE (R68). -/
def execWake (o : Order) (s : State) : Host.Outcome State Fault Refusal := run (takeWake o) s

/-- LOCK (R74). -/
def execLock (o : Order) (s : State) : Host.Outcome State Fault Refusal := run (takeLock o) s

/-- UNLOCK (R75). -/
def execUnlock (o : Order) (s : State) : Host.Outcome State Fault Refusal := run (takeUnlock o) s

/-- RELEASE (R76). -/
def execRelease (o : Order) (s : State) : Host.Outcome State Fault Refusal := run (takeReleaseOrder o) s

/-- HEAT (R92). -/
def execHeat (o : Order) (s : State) : Host.Outcome State Fault Refusal := run (takeHeat o) s

/-- CLEAR (R175). -/
def execClear (o : Order) (s : State) : Host.Outcome State Fault Refusal := run (takeClear o) s

/-- PROVE (R42, R176). -/
def execProve (o : Order) (s : State) : Host.Outcome State Fault Refusal := run (takeProve o) s

/-- UNDEFINED_ORDER_KIND: an order frame whose payload names no defined kind, or ends before it (R164); a payload that
names one is taken as that order (log 22). -/
def execUndefinedOrderKind (console : Byte) (payload : List Byte) (s : State) : Host.Outcome State Fault Refusal :=
  run (takePayload console payload) s

end Sys2Proof.Machine
end

