-- ==== Sys2Proof/Machine/ExecStart.lean ====
section
/-! DEFINITION. The meanings of the resets and of the start sequence's commands (chapter 11). -/

namespace Sys2Proof.Machine

/-- RESET_ASSERTED (R183). -/
def execResetAsserted (ms : Nat) (cuts : ItemCuts) (cutEmptying : Bool) (s : State) :
    Host.Outcome State Fault Refusal :=
  .next (assertReset ms cuts cutEmptying s)

/-- SUPPLY_FAILURE (R183). -/
def execSupplyFailure (ms : Nat) (lost : Bool) (cuts : ItemCuts) (cutEmptying : Bool) (s : State) :
    Host.Outcome State Fault Refusal :=
  .next (failSupply ms lost cuts cutEmptying s)

/-- START_INSTANT (R183, R184); a station that is not held in reset has no start instant. -/
def execStartInstant (s : State) : Host.Outcome State Fault Refusal :=
  .next (if s.inReset then drive (startInstant s) else s)

/-- SECTION_LOADED (R180 to R182). -/
def execSectionLoaded (bytes : List Byte) (s : State) : Host.Outcome State Fault Refusal := run (loadSection bytes) s

/-- CONFIGURATION_COMPLETE (R185). -/
def execConfigurationComplete (s : State) : Host.Outcome State Fault Refusal := run completeConfiguration s

end Sys2Proof.Machine
end

