-- ==== Sys2Proof/Machine/ExecStow.lean ====
section
/-! DEFINITION. The meanings of the stow unit's commands (chapter 3). -/

namespace Sys2Proof.Machine

/-- PIN_INPUT_TAKEN (R48, R54 to R56). -/
def execPinInputTaken (p : PinInput) (s : State) : Host.Outcome State Fault Refusal := run (takePin p) s

/-- PIN_TIMEOUT (R54, R56). -/
def execPinTimeout (s : State) : Host.Outcome State Fault Refusal := run (onBlocks pinExpiry) s

/-- RELEASE_HOLD_EXPIRY (R50). -/
def execReleaseHoldExpiry (s : State) : Host.Outcome State Fault Refusal := run (onBlocks endHold) s

/-- WAKE_SETTLE_END (R27, R66, R67). -/
def execWakeSettleEnd (s : State) : Host.Outcome State Fault Refusal := run (onBlocks endSettle) s

end Sys2Proof.Machine
end

