-- ==== Sys2Proof/Machine/ExecWind.lean ====
section
/-! DEFINITION. The meanings of the wind watch's commands (chapter 2). GUST_VALID, BLOCK_END, STALL_EXPIRY and WIND_PROOF_VERDICT are bin ends at which the thing named falls; where it does not fall they do nothing (log 23). -/

namespace Sys2Proof.Machine

/-- The bin end, where a bin is in progress and what the row names falls at its end. -/
def binEndWhere (falls : State → Bool) (lost : Nat) (s : State) : State := if falls s then binEndWork lost s else s

/-- ANEMOMETER_PULSE (R29). -/
def execAnemometerPulse (s : State) : Host.Outcome State Fault Refusal :=
  run (fun s => { s with env := { s.env with wind := countPulse s.env.wind } }) s

/-- BIN_END (R33). -/
def execBinEnd (lost : Nat) (s : State) : Host.Outcome State Fault Refusal := run (binEndWork lost) s

/-- GUST_VALID (R31). -/
def execGustValid (lost : Nat) (s : State) : Host.Outcome State Fault Refusal :=
  run (binEndWhere (fun s => gustFalls s.env.wind) lost) s

/-- BLOCK_END (R32). -/
def execBlockEnd (lost : Nat) (s : State) : Host.Outcome State Fault Refusal :=
  run (binEndWhere (fun s => blockFalls s.env.wind) lost) s

/-- STALL_EXPIRY (R35). -/
def execStallExpiry (lost : Nat) (s : State) : Host.Outcome State Fault Refusal := run (binEndWhere stallFalls lost) s

/-- WIND_PROOF_VERDICT (R45). -/
def execWindProofVerdict (lost : Nat) (s : State) : Host.Outcome State Fault Refusal :=
  run (binEndWhere (verdictFalls lost) lost) s

/-- GRACE_EXPIRY (R40). -/
def execGraceExpiry (s : State) : Host.Outcome State Fault Refusal := run graceWork s

end Sys2Proof.Machine
end

