-- ==== Sys2Proof/Machine/Dispatch.lean ====
section
/-! DEFINITION. The dispatch of a command to its meaning. -/

namespace Sys2Proof.Machine

def exec (i : Instr) (s : State) : Host.Outcome State Fault Refusal :=
  match i with
  | .point o => Sys2Proof.Machine.execPoint o s
  | .hold o => Sys2Proof.Machine.execHold o s
  | .brake o => Sys2Proof.Machine.execBrake o s
  | .stow o => Sys2Proof.Machine.execStow o s
  | .unstow o => Sys2Proof.Machine.execUnstow o s
  | .quiet o => Sys2Proof.Machine.execQuiet o s
  | .wake o => Sys2Proof.Machine.execWake o s
  | .lock o => Sys2Proof.Machine.execLock o s
  | .unlock o => Sys2Proof.Machine.execUnlock o s
  | .release o => Sys2Proof.Machine.execRelease o s
  | .heat o => Sys2Proof.Machine.execHeat o s
  | .clear o => Sys2Proof.Machine.execClear o s
  | .prove o => Sys2Proof.Machine.execProve o s
  | .peerBeacon origin payload => Sys2Proof.Machine.execPeerBeacon origin payload s
  | .ownNumberBeacon => Sys2Proof.Machine.execOwnNumberBeacon s
  | .discardedFrame f => Sys2Proof.Machine.execDiscardedFrame f s
  | .stray => Sys2Proof.Machine.execStray s
  | .transmissionStart gap => Sys2Proof.Machine.execTransmissionStart gap s
  | .lostArbitration word => Sys2Proof.Machine.execLostArbitration word s
  | .abort => Sys2Proof.Machine.execAbort s
  | .breakEnd => Sys2Proof.Machine.execBreakEnd s
  | .restTimerExpiry => Sys2Proof.Machine.execRestTimerExpiry s
  | .beaconComplete => Sys2Proof.Machine.execBeaconComplete s
  | .duplicateTimerExpiry => Sys2Proof.Machine.execDuplicateTimerExpiry s
  | .isolationTimerExpiry => Sys2Proof.Machine.execIsolationTimerExpiry s
  | .beaconIntervalDue => Sys2Proof.Machine.execBeaconIntervalDue s
  | .noiseDecay => Sys2Proof.Machine.execNoiseDecay s
  | .peerStale station => Sys2Proof.Machine.execPeerStale station s
  | .peerExpiry station => Sys2Proof.Machine.execPeerExpiry station s
  | .controlInterval samples => Sys2Proof.Machine.execControlInterval samples s
  | .onSourceSet => Sys2Proof.Machine.execOnSourceSet s
  | .followTimeout axis => Sys2Proof.Machine.execFollowTimeout axis s
  | .brakeReleasedFeedback axis => Sys2Proof.Machine.execBrakeReleasedFeedback axis s
  | .brakeEngagedFeedback axis => Sys2Proof.Machine.execBrakeEngagedFeedback axis s
  | .brakeTimeout axis => Sys2Proof.Machine.execBrakeTimeout axis s
  | .brakeMismatch axis => Sys2Proof.Machine.execBrakeMismatch axis s
  | .idleBrakeExpiry axis => Sys2Proof.Machine.execIdleBrakeExpiry axis s
  | .encoderRecovered axis => Sys2Proof.Machine.execEncoderRecovered axis s
  | .limitSwitch axis upper => Sys2Proof.Machine.execLimitSwitch axis upper s
  | .ampFaultInput => Sys2Proof.Machine.execAmpFaultInput s
  | .pinInputTaken input => Sys2Proof.Machine.execPinInputTaken input s
  | .pinTimeout => Sys2Proof.Machine.execPinTimeout s
  | .releaseHoldExpiry => Sys2Proof.Machine.execReleaseHoldExpiry s
  | .wakeSettleEnd => Sys2Proof.Machine.execWakeSettleEnd s
  | .anemometerPulse => Sys2Proof.Machine.execAnemometerPulse s
  | .binEnd lost => Sys2Proof.Machine.execBinEnd lost s
  | .gustValid lost => Sys2Proof.Machine.execGustValid lost s
  | .blockEnd lost => Sys2Proof.Machine.execBlockEnd lost s
  | .stallExpiry lost => Sys2Proof.Machine.execStallExpiry lost s
  | .windProofVerdict lost => Sys2Proof.Machine.execWindProofVerdict lost s
  | .graceExpiry => Sys2Proof.Machine.execGraceExpiry s
  | .settleIntervalEnd => Sys2Proof.Machine.execSettleIntervalEnd s
  | .fillTimeEnd => Sys2Proof.Machine.execFillTimeEnd s
  | .stowWaitLimit => Sys2Proof.Machine.execStowWaitLimit s
  | .keyTaken key => Sys2Proof.Machine.execKeyTaken key s
  | .recordWriteEnd => Sys2Proof.Machine.execRecordWriteEnd s
  | .pollRound answers => Sys2Proof.Machine.execPollRound answers s
  | .sensorFault sensor => Sys2Proof.Machine.execSensorFault sensor s
  | .wetChange => Sys2Proof.Machine.execWetChange s
  | .wetMemoryExpiry => Sys2Proof.Machine.execWetMemoryExpiry s
  | .cycleStart zone => Sys2Proof.Machine.execCycleStart zone s
  | .onTimeEnd zone => Sys2Proof.Machine.execOnTimeEnd zone s
  | .zoneFeedbackTimeout zone => Sys2Proof.Machine.execZoneFeedbackTimeout zone s
  | .feedbackProofVerdict => Sys2Proof.Machine.execFeedbackProofVerdict s
  | .resetAsserted ms cuts cutEmptying => Sys2Proof.Machine.execResetAsserted ms cuts cutEmptying s
  | .supplyFailure ms lost cuts cutEmptying => Sys2Proof.Machine.execSupplyFailure ms lost cuts cutEmptying s
  | .startInstant => Sys2Proof.Machine.execStartInstant s
  | .sectionLoaded bytes => Sys2Proof.Machine.execSectionLoaded bytes s
  | .configurationComplete => Sys2Proof.Machine.execConfigurationComplete s
  | .undefinedOrderKind console payload => Sys2Proof.Machine.execUndefinedOrderKind console payload s

end Sys2Proof.Machine
end

