-- ==== Sys2Proof/WellFormed.lean ====
section
/-! DEFINITION. Which terms of Instr are commands that the line, the field or the station's own timers can give: the checks on operands. The meanings do not rely on them. -/

namespace Sys2Proof

/-- An order as its frame can carry it: from a console number, with the argument bytes of an order frame at most
(R112, R114). -/
def orderWellFormed (o : Order) : Bool := Machine.inRange 224 239 o.console.toNat && decide (o.args.length ≤ 10)

/-- A peer's beacon: from a station number, with the beacon's payload length (R112, R114). -/
def beaconFrameWellFormed (origin : Byte) (payload : List Byte) : Bool :=
  Machine.inRange 1 64 origin.toNat && payload.length == Machine.beaconLength

/-- The operand checks of every command. -/
def wellFormed : Instr → Bool
  | .point o | .hold o | .brake o | .stow o | .unstow o | .quiet o | .wake o | .lock o | .unlock o | .release o
  | .heat o | .clear o | .prove o => orderWellFormed o
  | .undefinedOrderKind console payload =>
    Machine.inRange 224 239 console.toNat && decide (payload.length ≤ Machine.orderLengthMax)
      && !Machine.orderKindDefined (Machine.kindAt payload)
  | .peerBeacon origin payload => beaconFrameWellFormed origin payload
  | .discardedFrame f => decide (f.payload.length ≤ f.length.toNat)
  | .peerStale station | .peerExpiry station => Machine.inRange 1 64 station
  | .binEnd lost | .gustValid lost | .blockEnd lost | .stallExpiry lost | .windProofVerdict lost =>
    decide (lost ≤ Machine.counterMax)
  | .resetAsserted ms _ _ => decide (Machine.resetMs ≤ ms)
  | .supplyFailure ms lost _ _ => !lost || decide (Machine.holdUpMs < ms)
  | .sectionLoaded bytes => decide (bytes.length ≤ 96)
  | .ownNumberBeacon | .stray | .transmissionStart _ | .lostArbitration _ | .abort | .breakEnd | .restTimerExpiry
  | .beaconComplete | .duplicateTimerExpiry | .isolationTimerExpiry | .beaconIntervalDue | .noiseDecay
  | .controlInterval _ | .onSourceSet | .followTimeout _ | .brakeReleasedFeedback _ | .brakeEngagedFeedback _
  | .brakeTimeout _ | .brakeMismatch _ | .idleBrakeExpiry _ | .encoderRecovered _ | .limitSwitch _ _ | .ampFaultInput
  | .pinInputTaken _ | .pinTimeout | .releaseHoldExpiry | .wakeSettleEnd | .anemometerPulse | .graceExpiry
  | .settleIntervalEnd | .fillTimeEnd | .stowWaitLimit | .keyTaken _ | .recordWriteEnd | .pollRound _ | .sensorFault _
  | .wetChange | .wetMemoryExpiry | .cycleStart _ | .onTimeEnd _ | .zoneFeedbackTimeout _ | .feedbackProofVerdict
  | .startInstant | .configurationComplete => true

end Sys2Proof
end

