-- ==== Sys2Proof/Safety.lean ====
section
/-! DEFINITION. What a safe run of the station is, and the terms that statements about it use. -/

namespace Sys2Proof.Machine

/-! ## Terms of statements -/

/-- The station is not held in reset. -/
def Live (s : State) : Prop := s.inReset = false

/-- The order that a command carries, if it is one. -/
def orderCarried : Instr → Option Order
  | .point o | .hold o | .brake o | .stow o | .unstow o | .quiet o | .wake o | .lock o | .unlock o | .release o
  | .heat o | .clear o | .prove o => some o
  | .undefinedOrderKind console payload => some (orderAt console payload)
  | _ => none

/-- The form of an order is the one its kind has (R164). -/
def formGood : Instr → Bool
  | .point o => (pointArgs o.args).isSome
  | .hold o | .brake o | .stow o | .unstow o | .quiet o | .wake o | .release o => (noArgs o.args).isSome
  | .lock o | .unlock o => (lockKindArg o.args).isSome
  | .heat o => (heatModeArg o.args).isSome
  | .clear o => (classSetArg o.args).isSome
  | .prove o => (proofTargetArg o.args).isSome
  | _ => false

/-- A command is an order row whose kind is its own: every order but an undefined kind whose payload names a defined one. -/
def orderRow : Instr → Bool
  | .undefinedOrderKind _ payload => !orderKindDefined (kindAt payload)
  | c => (orderCarried c).isSome

/-- The row of an order by the code of its kind (12.3). -/
def rowOfKind (kind : Byte) (o : Order) : Option Instr :=
  match kind.toNat with
  | 1 => some (.point o)
  | 2 => some (.hold o)
  | 3 => some (.brake o)
  | 4 => some (.stow o)
  | 5 => some (.unstow o)
  | 6 => some (.quiet o)
  | 7 => some (.wake o)
  | 8 => some (.lock o)
  | 9 => some (.unlock o)
  | 10 => some (.release o)
  | 11 => some (.heat o)
  | 12 => some (.clear o)
  | 13 => some (.prove o)
  | _ => none

/-- The row that an order frame's origin and payload spell. -/
def rowOfPayload (console : Byte) (payload : List Byte) : Instr :=
  (rowOfKind (kindAt payload) (orderAt console payload)).getD (.undefinedOrderKind console payload)

/-- The row that has a command's effect: an intact frame read off the line is the beacon or the order that it spells
(R114). -/
def rowOf : Instr → Instr
  | .undefinedOrderKind console payload => rowOfPayload console payload
  | .discardedFrame f =>
    if frameIntact f = false then .discardedFrame f
    else if kindOfFrame f = beaconKind then .peerBeacon (originOfFrame f) f.payload
    else if kindOfFrame f = orderKind then rowOfPayload (originOfFrame f) f.payload
    else .discardedFrame f
  | c => c

/-- An axis is at rest or coming to rest: BRAKED, STOPPING or FAULT. -/
def AtRest (r : AxisRec) : Prop := isMoving r = false

/-- An order is taken: the station runs, and the order passes the tests of R114, R162 and R163. -/
def Taken (o : Order) (s : State) : Prop := Live s ∧ orderTaken o s = true

/-- What a POINT makes of an axis's state and release pending mark: a release request, a replaced target, a resumed
deceleration (R2, R3, R4, R23). `no`: a release is prohibited. -/
def pointedState (no : Bool) (r : AxisRec) : AxisState × Bool :=
  match r.state with
  | .braked => if no then (.braked, true) else (.unbraking, false)
  | .unbraking => (.unbraking, r.releasePending)
  | .active => (.active, r.releasePending)
  | .stopping => if r.engaging || no then (.stopping, true) else (.active, false)
  | .fault => (.fault, r.releasePending)

/-- An axis record but for the two fields that change beside its own motion: the idle-brake timer, which follows the stow
state (R8), and the read that the next one is tested against, which follows the park state (R16, R27). -/
def motion (r : AxisRec) : AxisRec := { r with idleTimer := none, answered := none }

/-! ## Which commands may change what -/

/-- The start of the blocks, and a control interval, whose time passes for every block. -/
def touchesAll : Instr → Bool
  | .startInstant | .controlInterval _ => true
  | _ => false

/-- The commands under which time passes. -/
def changesTime (c : Instr) : Bool := touchesAll c

/-- The commands that place, settle or remove lockout records (chapter 4); time ages them. -/
def changesList : Instr → Bool
  | .lock _ | .unlock _ | .release _ | .keyTaken _ | .sectionLoaded _ => true
  | c => touchesAll c

/-- The commands that change peer records (chapter 7). -/
def changesPeers : Instr → Bool
  | .peerBeacon _ _ | .peerStale _ | .peerExpiry _ => true
  | c => touchesAll c

/-- The commands of the configuration loader (chapter 11). -/
def changesSetup : Instr → Bool
  | .sectionLoaded _ | .configurationComplete => true
  | c => touchesAll c

/-- The commands of the wind watch, and those that count its peers (chapter 2). -/
def changesWind : Instr → Bool
  | .anemometerPulse | .binEnd _ | .gustValid _ | .blockEnd _ | .stallExpiry _ | .windProofVerdict _ | .graceExpiry
  | .prove _ | .sectionLoaded _ => true
  | c => changesPeers c

/-- The commands that store a sampled or filtered input. -/
def changesInputs : Instr → Bool
  | .brakeReleasedFeedback _ | .brakeEngagedFeedback _ | .limitSwitch _ _ | .ampFaultInput | .pinInputTaken _
  | .keyTaken _ => true
  | c => touchesAll c

/-- The commands that may write the result slot: the orders and the start (R167). -/
def changesSlot (c : Instr) : Bool := (orderCarried c).isSome || touchesAll c

/-- The commands that change the retained store's records, marks or write queue (R78, R79). -/
def changesStore : Instr → Bool
  | .recordWriteEnd | .resetAsserted _ _ _ | .supplyFailure _ _ _ _ => true
  | c => changesList c

/-- The commands that may change the stow causes: orders and beacons end ISOLATION, the wind watch and the isolation timer
hand theirs over (R49, R117). -/
def changesCauses : Instr → Bool
  | .binEnd _ | .gustValid _ | .blockEnd _ | .stallExpiry _ | .windProofVerdict _ | .graceExpiry
  | .isolationTimerExpiry => true
  | c => (orderCarried c).isSome || changesPeers c

/-- The commands that may move, stop, fault or retarget an axis (chapters 1 and 3). -/
def movesAxes : Instr → Bool
  | .followTimeout _ | .brakeReleasedFeedback _ | .brakeEngagedFeedback _ | .brakeTimeout _ | .brakeMismatch _
  | .idleBrakeExpiry _ | .encoderRecovered _ | .limitSwitch _ _ | .ampFaultInput | .pinInputTaken _ | .wakeSettleEnd
  | .keyTaken _ | .sectionLoaded _ | .configurationComplete => true
  | c => changesCauses c

/-- The commands that may change the claim: those that move an axis, and those that bring a computation or an admission test
(R140, R148, R151), or a completion (R150). -/
def changesClaim : Instr → Bool
  | .beaconComplete | .duplicateTimerExpiry | .settleIntervalEnd | .fillTimeEnd | .stowWaitLimit | .pollRound _
  | .sensorFault _ | .wetChange | .wetMemoryExpiry | .zoneFeedbackTimeout _ => true
  | c => movesAxes c

/-- The commands that may change the stow state: those of the stow unit, and those that may admit a STOW claim (R47, R52). -/
def changesStowState : Instr → Bool
  | .beaconComplete => false
  | .pinTimeout => true
  | c => changesClaim c

/-- The commands that may change the state of a condition (R170). -/
def changesConds : Instr → Bool
  | .ownNumberBeacon | .discardedFrame _ | .stray | .breakEnd | .noiseDecay | .pinTimeout | .feedbackProofVerdict => true
  | c => changesClaim c

/-- The commands that start, restart or stop a timer of the line port (R106). -/
def changesLineTimers : Instr → Bool
  | .peerBeacon _ _ | .ownNumberBeacon | .breakEnd | .restTimerExpiry | .beaconComplete | .duplicateTimerExpiry
  | .isolationTimerExpiry | .noiseDecay | .configurationComplete => true
  | c => (orderCarried c).isSome || touchesAll c

/-- The line port's timers: rest, duplicate, beacon, isolation, and the second of the noise count. -/
def lineTimers (l : LinePort) : Option Nat × Option Nat × Option Nat × Option Nat × Nat :=
  (l.restTimer, l.duplicateTimer, l.beaconTimer, l.isolationTimer, l.noiseClock)

/-- The commands that set the heat mode (R87, R92). -/
def changesHeatMode : Instr → Bool
  | .heat _ => true
  | c => touchesAll c

/-- The commands that read the temperature sensors (R89). -/
def readsSensors : Instr → Bool
  | .pollRound _ => true
  | c => touchesAll c

/-- The commands of the feedback proof (R176 to R179). -/
def changesProof : Instr → Bool
  | .prove _ | .feedbackProofVerdict => true
  | c => touchesAll c

/-- The commands that settle the condition masks (R169). -/
def changesMasks : Instr → Bool
  | .sectionLoaded _ => true
  | c => touchesAll c

/-- The commands that count noise; a frame too long for an order or a beacon counts as well (R112, R113). -/
def changesNoise : Instr → Bool
  | .discardedFrame _ | .stray | .noiseDecay | .peerBeacon _ _ => true
  | c => (orderCarried c).isSome || touchesAll c

/-! ## Safety -/

/-- People are protected: while the lockout list holds a blocking record every axis is BRAKED, STOPPING or FAULT
(R26). -/
def Protected (s : State) : Prop :=
  blocking s.env.list = true → AtRest s.core.axes.az ∧ AtRest s.core.axes.el

/-- The class summary is the set of classes with an unmasked condition ACTIVE or LATCHED (R172). -/
def SummaryRight (s : State) : Prop := s.core.cond.summary = summaryOf s.core.cond.states s.core.cond.masks

/-- The outputs are the safe levels in reset, and follow the blocks at other times (R183, 11.4). -/
def OutputsRight (s : State) : Prop := s.outputs = if s.inReset then safeOutputs else outputsOf s.env s.core

/-- The station numbers of the peer table rise strictly, so that no two records share one. -/
def Rising : List Peer → Prop
  | [] => True
  | p :: ps => (∀ q ∈ ps, p.station < q.station) ∧ Rising ps

/-- The peer table as R123 bounds it: at most 24 records, one a station, none with the own number; and empty until section
A is installed, which the loader has then dealt with (R124, R180). -/
def TableRight (s : State) : Prop :=
  s.env.peers.length ≤ tableMax ∧ Rising s.env.peers ∧ (∀ p ∈ s.env.peers, 1 ≤ p.station ∧ p.station ≤ 64)
    ∧ (∀ a, s.env.setup.secA = some a → ∀ p ∈ s.env.peers, p.station ≠ a.station)
    ∧ (s.env.setup.secA = none → s.env.peers = [])
    ∧ (s.env.setup.loading = some .a → s.env.setup.secA = none)

/-- No two lockout records share an identity: one a key, one system record, one a console and kind; and the list holds at
most 12 records, 7 of them of consoles (R69). -/
def ListRight (s : State) : Prop :=
  (s.env.list.map lockIdent).Nodup ∧ s.env.list.length ≤ listMax
    ∧ countOrigin isConsoleOrigin s.env.list ≤ consoleMax

/-- What the retained store holds of a running station's list, so that the list rebuilt from it after a reset keeps the
bounds of R69: it stores and marks no identity that the list does not hold or whose removal is not yet written, and the
console records held, with those removals, stay within the quota (R74, R79). -/
def StoreFollows (s : State) : Prop :=
  s.store.queue.Nodup
    ∧ (∀ r ∈ s.store.records, lockIdent r ∈ s.env.list.map lockIdent ∨ lockIdent r ∈ unwritten s.store)
    ∧ (∀ m ∈ s.store.marks, markIdent m ∈ s.env.list.map lockIdent ∨ markIdent m ∈ unwritten s.store)
    ∧ (∀ w, s.store.writing = some w → ¬w.1 ∈ s.store.queue → ¬w.1 ∈ s.env.list.map lockIdent →
        ∀ r ∈ s.store.records, ¬lockIdent r = w.1)
    ∧ consoleCount s.env.list s.store ≤ consoleMax

/-- In reset the list that a warm start would rebuild keeps the bounds (R81). -/
def StoreReady (s : State) : Prop :=
  ((rebuildList s.store).map lockIdent).Nodup ∧ countOrigin isConsoleOrigin (rebuildList s.store) ≤ consoleMax

/-- The retained store's part of the bounds of R69. -/
def StoreRight (s : State) : Prop :=
  (s.store.records.map lockIdent).Nodup ∧ (s.inReset = false → StoreFollows s) ∧ (s.inReset = true → StoreReady s)

/-- A safe state of the station. -/
def Safe (s : State) : Prop :=
  Protected s ∧ SummaryRight s ∧ OutputsRight s ∧ TableRight s ∧ ListRight s ∧ StoreRight s

end Sys2Proof.Machine
end

