-- ==== Sys2Proof/Certificates/Slice0/Obligations.lean ====
section
/-! DEFINITION. The statements for the provers: what the station's commands do, rule by rule, and what every step keeps. -/

open Sys2Proof Sys2Proof.Machine

/-! ## The step -/

/-- A step takes the command at the front of the queue and answers what it does to the station with the rest waiting (log 1). -/
def Obligations.StepRunsFrontCommand : Prop :=
  ∀ (c : Instr) (rest : List Instr) (s : State), s.pending = c :: rest → step s = exec c { s with pending := rest }

/-- With no command waiting: reset stays; a command of the station's own that has fallen due joins the queue; otherwise
1 ms passes, up to the last before a control interval. This is the model's choice (log 2). -/
def Obligations.IdleStationRunsItsTimers : Prop :=
  ∀ s : State, s.pending = [] →
    (s.inReset = true → step s = .next s)
      ∧ (Live s → ∀ c rest, dueCommands s = c :: rest → step s = .next { s with pending := [c] })
      ∧ (Live s → dueCommands s = [] → s.env.now % 10 < 9 →
          ∃ t, step s = .next t ∧ t.env.now = s.env.now + 1 ∧ t.pending = [] ∧ t.inReset = false ∧ t.slot = s.slot
            ∧ t.core.axes.az = advanceAxis s.env 1 s.core.axes.az
            ∧ t.core.axes.el = advanceAxis s.env 1 s.core.axes.el)
      ∧ (Live s → dueCommands s = [] → ¬s.env.now % 10 < 9 → step s = .next s)

/-- The state right after reset: held in reset, every output at its safe level, nothing waiting, and safe. -/
def Obligations.ResetStateIsSafe : Prop :=
  Safe State.reset ∧ State.reset.inReset = true ∧ State.reset.outputs = safeOutputs ∧ State.reset.pending = []
    ∧ State.reset.core.axes.az.state = .braked ∧ State.reset.core.axes.el.state = .braked
    ∧ State.reset.core.cond.summary = 0 ∧ State.reset.slot.code = .none ∧ State.reset.env.peers = []

/-- While a DRIVE, ALL or UNCERTAIN record is held, no step lets an axis into UNBRAKING or ACTIVE. -/
def Obligations.EveryStepKeepsProtection : Prop :=
  ∀ s t : State, Protected s → step s = .next t → Protected t

/-- Every step leaves the class summary the set of classes with an unmasked condition ACTIVE or LATCHED. -/
def Obligations.EveryStepKeepsSummary : Prop :=
  ∀ s t : State, SummaryRight s → step s = .next t → SummaryRight t

/-- Every step leaves the peer table within its bounds. -/
def Obligations.EveryStepKeepsPeerTable : Prop :=
  ∀ s t : State, TableRight s → step s = .next t → TableRight t

/-- Every step leaves at most one lockout record to an identity, at most 12 records and at most 7 of consoles, and keeps the
retained store fit to rebuild such a list. -/
def Obligations.EveryStepKeepsLockIdentities : Prop :=
  ∀ s t : State, ListRight s → StoreRight s → step s = .next t → ListRight t ∧ StoreRight t

/-- Every step leaves the outputs at the safe levels in reset and following the blocks at other times. -/
def Obligations.EveryStepKeepsOutputs : Prop :=
  ∀ s t : State, OutputsRight s → step s = .next t → OutputsRight t

/-! ## What commands leave alone -/

/-- The frame of the tables and records: the time, the lockout list, the peer table, the settings, the wind watch, the
sampled inputs, the result slot and the retained store's lists change under the commands named for each, and stay
exactly as they are under every other. An intact frame read off the line counts as the row it spells. -/
def Obligations.FrameOfTheRecords : Prop :=
  ∀ (i : Instr) (s t : State), exec i s = .next t →
    let c := rowOf i
    (changesTime c = false → t.env.now = s.env.now)
    ∧ (changesList c = false → t.env.list = s.env.list)
    ∧ (changesPeers c = false → t.env.peers = s.env.peers)
    ∧ (changesSetup c = false → t.env.setup = s.env.setup)
    ∧ (changesWind c = false → t.env.wind = s.env.wind)
    ∧ (changesInputs c = false → t.env.inputs = s.env.inputs)
    ∧ (changesSlot c = false → t.slot = s.slot)
    ∧ (changesStore c = false → t.store.records = s.store.records ∧ t.store.marks = s.store.marks
        ∧ t.store.queue = s.store.queue ∧ t.store.writing = s.store.writing)

/-- The frame of the acting blocks: no command touches the queue, and the axes' motion, the stow causes, the heat mode,
the sensor readings, the feedback proof, the masks, the noise count, the stow state, the claim, the conditions' states and
the line port's timers change under the commands named for each alone. -/
def Obligations.FrameOfTheBlocks : Prop :=
  ∀ (i : Instr) (s t : State), exec i s = .next t →
    let c := rowOf i
    t.pending = s.pending
    ∧ (movesAxes c = false → motion t.core.axes.az = motion s.core.axes.az ∧ motion t.core.axes.el = motion s.core.axes.el)
    ∧ (changesCauses c = false → t.core.stow.causes = s.core.stow.causes)
    ∧ (changesHeatMode c = false → t.core.heat.mode = s.core.heat.mode)
    ∧ (readsSensors c = false → t.core.heat.ambient = s.core.heat.ambient
        ∧ ∀ z : Fin 4, (fourGet t.core.heat.zones z).reading = (fourGet s.core.heat.zones z).reading)
    ∧ (changesProof c = false → t.core.cond.proof = s.core.cond.proof)
    ∧ (changesMasks c = false → t.core.cond.masks = s.core.cond.masks ∧ t.core.cond.alarmMask = s.core.cond.alarmMask)
    ∧ (changesNoise c = false → t.core.line.noise = s.core.line.noise)
    ∧ (changesStowState c = false → t.core.stow.state = s.core.stow.state)
    ∧ (changesClaim c = false → t.core.fee.claim = s.core.fee.claim)
    ∧ (changesConds c = false → t.core.cond.states = s.core.cond.states)
    ∧ (changesLineTimers c = false → lineTimers t.core.line = lineTimers s.core.line)

/-! ## Layouts and arithmetic -/

/-- A beacon's payload, as a station writes it, is read as the beacon it was. -/
def Obligations.BeaconDecodesAsEncoded : Prop := ∀ b : Beacon, decodeBeacon (encodeBeacon b) = b

/-- The braking speed is the floor of the square root of 2·a·|e| wherever that product fits 64 bits. -/
def Obligations.BrakingSpeedIsFloorOfRoot : Prop :=
  ∀ a err : Int, 0 ≤ a → 2 * a * absInt err < 2 ^ 64 →
    0 ≤ brakingSpeed a err ∧ brakingSpeed a err * brakingSpeed a err ≤ 2 * a * absInt err
      ∧ 2 * a * absInt err < (brakingSpeed a err + 1) * (brakingSpeed a err + 1)

/-- The azimuth turn: within the soft limits; unclamped exactly where a candidate lies within them, and then the nearest
to the present azimuth, of equally near ones the nearest 0, of those the positive one; otherwise the limit next to the
candidate nearest the soft range, of equally near ones the nearest to the present azimuth, of those the greater: the
positive one where one alone is positive, and the model's choice elsewhere (log 58). -/
def Obligations.AzimuthTurnIsNearest : Prop :=
  ∀ lo hi x a : Int, lo ≤ hi →
    let cs := [a - 360000000, a, a + 360000000]
    let r := azimuthTurn lo hi x a
    lo ≤ r.p ∧ r.p ≤ hi
      ∧ (r.clamped = false ↔ ∃ c ∈ cs, lo ≤ c ∧ c ≤ hi)
      ∧ (r.clamped = false → r.p ∈ cs ∧ ∀ c ∈ cs, lo ≤ c → c ≤ hi →
          absInt (r.p - x) < absInt (c - x)
            ∨ (absInt (r.p - x) = absInt (c - x) ∧ (absInt r.p < absInt c ∨ (absInt r.p = absInt c ∧ c ≤ r.p))))
      ∧ (r.clamped = true → ∃ c ∈ cs, r.p = clampInt lo hi c ∧ ∀ d ∈ cs,
          rangeGap lo hi c < rangeGap lo hi d
            ∨ (rangeGap lo hi c = rangeGap lo hi d
              ∧ (absInt (c - x) < absInt (d - x) ∨ (absInt (c - x) = absInt (d - x) ∧ d ≤ c))))

/-- The profile step of an ACTIVE or STOPPING axis leaves the position within the soft limits, the carry below 100 and
the duty within its range. -/
def Obligations.ProfileStaysInBounds : Prop :=
  ∀ (e : Env) (k : Core) (i : Axis), softLow e i ≤ softHigh e i →
    ((getAxis k i).state = .active ∨ ((getAxis k i).state = .stopping ∧ (getAxis k i).engaging = false)) →
    softLow e i ≤ (axisInterval e k i).x ∧ (axisInterval e k i).x ≤ softHigh e i
      ∧ 0 ≤ (axisInterval e k i).carry ∧ (axisInterval e k i).carry < 100
      ∧ 0 ≤ (axisInterval e k i).duty ∧ (axisInterval e k i).duty ≤ 1000

/-- A computation's allowance exceeds neither the own heater demand nor the heater pool computed; an allowance applied
gives a scale of at most 1000 and each zone an output duty of at most its demand duty, 0 for a heater demand of 0. -/
def Obligations.HeaterShareIsBounded : Prop :=
  ∀ (e : Env) (k : Core),
    (k.fee.ownDemand ≤ 65535 → (compute e k).fee.allowance ≤ (compute e k).fee.ownDemand
      ∧ (hasBudget e = true → (compute e k).fee.allowance ≤ (compute e k).fee.pool))
    ∧ (applyAllowance e k).heat.scale ≤ 1000
    ∧ ∀ z : Fin 4, (fourGet (applyAllowance e k).heat.zones z).output ≤ (fourGet (applyAllowance e k).heat.zones z).demand
        ∧ (k.heat.demand = 0 → (fourGet (applyAllowance e k).heat.zones z).output = 0)

/-! ## Orders -/

/-- An order out of scope, from no console, too long for an order, reaching a station that does not receive, or read before
configuration has completed, writes nothing to the result slot and reaches no block: axes, stow unit, heater, feeder account
and conditions stand as the frame's reception leaves them. From a console, after completion, that reception has restarted the
isolation timer and removed ISOLATION. A frame too long for an order counts as noise where the station does not drive the
line itself (log 42), changes no condition but LINE_NOISE and moves no axis. In every other case the reception changes none of
them. -/
def Obligations.IgnoredOrderDoesNothing : Prop :=
  ∀ (c : Instr) (o : Order) (s : State), orderCarried c = some o → orderRow c = true → Live s → orderTaken o s = false →
    let h := hearOrder o s
    ∃ t, exec c s = .next t ∧ t.slot = s.slot ∧ t.env = s.env ∧ t.core.heat.mode = s.core.heat.mode
      ∧ t.core.axes = h.core.axes ∧ t.core.stow = h.core.stow ∧ t.core.heat = h.core.heat ∧ t.core.fee = h.core.fee
      ∧ t.core.cond = h.core.cond ∧ t.store.records = s.store.records ∧ t.store.marks = s.store.marks
      ∧ ((receiving s.env = false ∨ (tooLong o = true ∧ driving s.core.line = true)
            ∨ (tooLong o = false ∧ (isConsole o.console = false ∨ s.env.setup.configured = false))) →
          t.core.axes = s.core.axes ∧ t.core.stow = s.core.stow ∧ t.core.heat = s.core.heat ∧ t.core.fee = s.core.fee
            ∧ t.core.cond = s.core.cond ∧ t.core.line.noise = s.core.line.noise
            ∧ t.core.line.isolationTimer = s.core.line.isolationTimer)
      ∧ (receiving s.env = true → tooLong o = true → driving s.core.line = false →
          t.core.line.noise = min 32 (s.core.line.noise + 1)
            ∧ (16 ≤ s.core.line.noise + 1 → condAt t.core.cond .lineNoise = .active)
            ∧ (s.core.line.noise + 1 < 16 → t.core.cond = s.core.cond ∧ t.core.axes = s.core.axes ∧ t.core.stow = s.core.stow)
            ∧ (∀ c, ¬c = .lineNoise → condAt t.core.cond c = condAt s.core.cond c)
            ∧ motion t.core.axes.az = motion s.core.axes.az ∧ motion t.core.axes.el = motion s.core.axes.el
            ∧ t.core.stow.state = s.core.stow.state ∧ t.core.stow.causes = s.core.stow.causes
            ∧ t.core.heat = s.core.heat ∧ t.core.fee = s.core.fee
            ∧ t.core.line.isolationTimer = s.core.line.isolationTimer)
      ∧ (receiving s.env = true → tooLong o = false → isConsole o.console = true → s.env.setup.configured = true →
          t.core.line.isolationTimer = some 0 ∧ t.core.stow.causes = { s.core.stow.causes with isolation := false })

/-- An order taken overwrites the result slot with its own tag and console; scoped STATION it makes a beacon request. -/
def Obligations.TakenOrderAnswers : Prop :=
  ∀ (c : Instr) (o : Order) (s : State), orderCarried c = some o → orderRow c = true → Taken o s →
    ∃ t, exec c s = .next t ∧ t.slot.tag = o.tag ∧ t.slot.console = o.console
      ∧ (stationScope o = true → t.core.line.pending.isSome = true ∧ ¬t.core.line.tx = .idle)

/-- A malformed order is refused with ARGUMENT and reaches no block: an undefined order kind, a wrong length, an
undefined argument code, an empty class set. -/
def Obligations.MalformedOrderIsArgument : Prop :=
  ∀ (c : Instr) (o : Order) (s : State), orderCarried c = some o → orderRow c = true → Taken o s → formGood c = false →
    ∃ t, exec c s = .next t ∧ t.slot = { tag := o.tag, console := o.console, code := .argument }
      ∧ t.env = s.env ∧ t.core.axes = (hearOrder o s).core.axes ∧ t.core.stow = (hearOrder o s).core.stow
      ∧ t.core.heat = (hearOrder o s).core.heat ∧ t.core.fee = (hearOrder o s).core.fee
      ∧ t.core.cond = (hearOrder o s).core.cond ∧ t.store.records = s.store.records ∧ t.store.marks = s.store.marks

/-- The tests of a POINT order, in their order, and its result; a refused one has no effect on any block but its
result. `h` is the station once the order's frame has been heard. -/
def Obligations.PointOrderTests : Prop :=
  ∀ (o : Order) (a : PointArgs) (s : State), Taken o s → pointArgs o.args = some a →
    let h := hearOrder o s
    ∃ t, exec (.point o) s = .next t
      ∧ t.slot.code =
        (if pointBlocked h.env.list = true then .locked
          else if ¬h.core.stow.state = .clear then .stowing
          else if someFault h.core = true then .fault
          else if a.azimuth < 0 ∨ 359999 < a.azimuth ∨ (h.env.setup.secB.trackBand : Int) < absInt a.azRate
              ∨ (h.env.setup.secB.trackBand : Int) < absInt a.elRate then .argument
          else if (pointAzimuth h.env a h.core).clamped = true ∨ (pointElevation h.env a).clamped = true then .clamped
          else .done)
      ∧ (¬t.slot.code = .clamped → ¬t.slot.code = .done →
          t.core.axes = h.core.axes ∧ t.core.stow = h.core.stow ∧ t.core.fee = h.core.fee ∧ t.core.heat = h.core.heat
            ∧ t.core.cond = h.core.cond ∧ t.env = h.env ∧ t.store.records = s.store.records
            ∧ t.store.marks = s.store.marks)

/-- An accepted POINT gives both axes their targets, each by its state; positions, rates and carries go on. With these
targets the axes that must accelerate beyond the track band are found: a claim of NONE becomes a WAITING SLEW claim for
them, a WAITING one takes their set and keeps its wait age, an ACTIVE one keeps its set as a SLEW claim; where none must, a
WAITING claim is withdrawn and an ACTIVE one runs on. -/
def Obligations.PointGivesTargets : Prop :=
  ∀ (o : Order) (a : PointArgs) (s : State), Taken o s → pointArgs o.args = some a →
    pointRefusal s.env a (hearOrder o s).core = none → s.env.inputs.ampFault = false →
    ∃ t, exec (.point o) s = .next t
      ∧ (∀ i : Axis,
        let r := getAxis (hearOrder o s).core i
        let r' := getAxis t.core i
        r'.target =
            (match i with
              | .az => pointTarget a s.env.now (pointAzimuth s.env a (hearOrder o s).core).p a.azRate
              | .el => pointTarget a s.env.now (pointElevation s.env a).p a.elRate)
          ∧ (r'.state, r'.releasePending) = pointedState (releaseProhibited s.env (hearOrder o s).core) r
          ∧ r'.x = r.x ∧ r'.v = r.v ∧ r'.carry = r.carry)
      ∧ (hasBudget s.env = false → t.core.fee.claim = (hearOrder o s).core.fee.claim)
      ∧ (hasBudget s.env = true →
          let c := (hearOrder o s).core.fee.claim
          let c' := t.core.fee.claim
          let k := giveTarget s.env .el (pointTarget a s.env.now (pointElevation s.env a).p a.elRate)
            (giveTarget s.env .az
              (pointTarget a s.env.now (pointAzimuth s.env a (hearOrder o s).core).p a.azRate) (hearOrder o s).core)
          let az := mustAccelerate s.env k .az
          let el := mustAccelerate s.env k .el
          (az = false → el = false → c' = (if c.state = .waiting then noClaim else c))
            ∧ ((az = true ∨ el = true) →
              (c.state = .none → c' =
                  { noClaim with
                    kind := .slew, state := .waiting, accAz := az, accEl := el, amount := claimAmount s.env k az el,
                    need := claimAmount s.env k az el - ownLoad k.fee })
                ∧ (c.state = .waiting → ¬c'.state = .none ∧ c'.accAz = az ∧ c'.accEl = el ∧ c'.waitAge = c.waitAge
                    ∧ c'.announced = c.announced ∧ c'.kind = waitingKind c.kind .slew)
                ∧ (c.state = .active → c'.state = .active ∧ c'.kind = .slew ∧ c'.accAz = c.accAz
                    ∧ c'.accEl = c.accEl)))

/-- A HOLD order: refused with STOWING while the stow state is not CLEAR; otherwise each moving axis takes a HOLD target
at its profile position and restarts its idle-brake timer, other axes stay as they are, a release pending mark goes with
its target, a WAITING claim is withdrawn and an ACTIVE one runs on. -/
def Obligations.HoldOrderHoldsAxes : Prop :=
  ∀ (o : Order) (s : State), Taken o s → o.args = [] →
    let h := hearOrder o s
    ∃ t, exec (.hold o) s = .next t
      ∧ t.slot.code = (if h.core.stow.state = .clear then .done else .stowing)
      ∧ (¬h.core.stow.state = .clear → t.core.axes = h.core.axes ∧ t.core.fee = h.core.fee)
      ∧ (h.core.stow.state = .clear → ¬t.core.fee.claim.state = .waiting
          ∧ (h.core.fee.claim.state = .active → t.core.fee.claim = h.core.fee.claim)
          ∧ ∀ i : Axis,
            let r := getAxis h.core i
            getAxis t.core i =
              { r with
                releasePending := false
                target :=
                  if r.releasePending = true then .none else if isMoving r = true then .hold r.x else r.target
                idleTimer :=
                  if isMoving r = true then (if r.state = .active then some 0 else none) else r.idleTimer })

/-- A BRAKE order: refused with STOWING while a stow is under way; with both axes at rest and no release pending it has
no effect; otherwise each moving axis enters STOPPING, at rest with its brake de-energised at once, other axes stay as
they are, a release pending mark goes with its target, and a WAITING claim is withdrawn. -/
def Obligations.BrakeOrderStopsAxes : Prop :=
  ∀ (o : Order) (s : State), Taken o s → o.args = [] →
    let h := hearOrder o s
    ∃ t, exec (.brake o) s = .next t
      ∧ t.slot.code = (if stowUnderWay h.core.stow.state = true then .stowing else .done)
      ∧ (stowUnderWay h.core.stow.state = true ∨ (atRest h.core.axes.az = true ∧ atRest h.core.axes.el = true) →
          t.core.axes = h.core.axes ∧ t.core.fee = h.core.fee)
      ∧ (stowUnderWay h.core.stow.state = false → ¬(atRest h.core.axes.az = true ∧ atRest h.core.axes.el = true) →
          ¬t.core.fee.claim.state = .waiting)
      ∧ (stowUnderWay h.core.stow.state = false → ∀ i : Axis,
          let r := getAxis h.core i
          (isMoving r = true → getAxis t.core i =
              { r with
                state := .stopping, target := .none, releasePending := false, idleTimer := none,
                engaging := decide (r.v = 0), brakeTimer := if r.v = 0 then some 0 else none, brakeSeen := false })
            ∧ (isMoving r = false → getAxis t.core i =
              { r with releasePending := false, target := if r.releasePending = true then .none else r.target }))

/-- A STOW order is accepted with DONE and adds CONSOLE; a RELEASING station returns to PINNING, a CLEAR one goes to
BLOCKED, FAILED, or on its way to stow, and every other stow state stands. -/
def Obligations.StowOrderAddsConsole : Prop :=
  ∀ (o : Order) (s : State), Taken o s → o.args = [] →
    let h := hearOrder o s
    ∃ t, exec (.stow o) s = .next t ∧ t.slot.code = .done
      ∧ t.core.stow.causes = { h.core.stow.causes with console := true } ∧ t.store.console = true
      ∧ (h.core.stow.causes.console = true ∨ (¬h.core.stow.state = .clear ∧ ¬h.core.stow.state = .releasing) →
          t.core.stow.state = h.core.stow.state)
      ∧ (h.core.stow.causes.console = false → h.core.stow.state = .releasing → t.core.stow.state = .pinning)
      ∧ (h.core.stow.causes.console = false → h.core.stow.state = .clear →
          (blocking s.env.list = true → t.core.stow.state = .blocked)
            ∧ (blocking s.env.list = false → someFault h.core = true → t.core.stow.state = .failed)
            ∧ (blocking s.env.list = false → someFault h.core = false → s.env.inputs.ampFault = false →
                t.core.stow.state = .demanded ∨ t.core.stow.state = .moving))

/-- The tests of an UNSTOW order, in their order, and what it does: refused, or with nothing to do, the stow state and
the causes stand; accepted, CONSOLE goes and the stow state does what its rule says. A PARKED station wakes. -/
def Obligations.UnstowOrderTests : Prop :=
  ∀ (o : Order) (s : State), Taken o s → o.args = [] →
    let h := hearOrder o s
    let u := h.core.stow
    let left := { u.causes with console := false }
    ∃ t, exec (.unstow o) s = .next t
      ∧ t.slot.code =
        (if u.state = .clear then .done
          else if ¬left = noCauses then .cause
          else if u.holdTimer.isSome = true then .holding
          else if u.state = .stowed ∧ blocking s.env.list = true then .locked
          else if (u.state = .stowed ∨ u.state = .pinning) ∧ someFault h.core = true then .fault
          else .done)
      ∧ t.core.stow.park = (if u.park = .parked then .waking else u.park)
      ∧ (¬t.slot.code = .done ∨ u.state = .clear → t.core.stow.state = u.state ∧ t.core.stow.causes = u.causes)
      ∧ (t.slot.code = .done → ¬u.state = .clear →
          t.core.stow.causes = left
            ∧ (u.state = .demanded ∨ u.state = .moving → t.core.stow.state = .clear)
            ∧ (u.state = .pinning ∨ (u.state = .stowed ∧ u.park = .run) → s.env.inputs.ampFault = false →
                t.core.stow.state = .releasing)
            ∧ (u.state = .stowed → ¬u.park = .run → t.core.stow.state = .stowed ∧ t.core.stow.pendingRelease = true)
            ∧ (u.state = .releasing ∨ u.state = .failed → t.core.stow.state = u.state)
            ∧ (u.state = .blocked → t.core.stow.state = (if pinIsIn s.env = true then .clear else .blocked)))

/-- QUIET parks a station in posture STOWED with both axes BRAKED and is refused with STATE otherwise; WAKE turns PARKED
into WAKING with the settle timer started and leaves another park state as it is. -/
def Obligations.QuietAndWakeOrders : Prop :=
  ∀ (o : Order) (s : State), Taken o s → o.args = [] →
    let h := hearOrder o s
    (∃ t, exec (.quiet o) s = .next t
      ∧ (posture h.env h.core = .stowed ∧ h.core.axes.az.state = .braked ∧ h.core.axes.el.state = .braked →
          t.slot.code = .done ∧ t.core.stow = { h.core.stow with park := .parked } ∧ t.outputs.encoderPower = false)
      ∧ (¬(posture h.env h.core = .stowed ∧ h.core.axes.az.state = .braked ∧ h.core.axes.el.state = .braked) →
          t.slot.code = .state ∧ t.core.stow = h.core.stow)
      ∧ t.core.axes = h.core.axes)
    ∧ (∃ t, exec (.wake o) s = .next t ∧ t.slot.code = .done
      ∧ (h.core.stow.park = .parked → t.core.stow = { h.core.stow with park := .waking, settleTimer := some 0 }
          ∧ t.outputs.encoderPower = true)
      ∧ (¬h.core.stow.park = .parked → t.core.stow = h.core.stow ∧ t.core.axes = h.core.axes ∧ t.core.heat = h.core.heat
          ∧ t.core.fee = h.core.fee ∧ t.core.cond = h.core.cond ∧ t.env = h.env))

/-- LOCK of kind k from console c: the five cases of R74 in their order, with the list each leaves. -/
def Obligations.LockOrderCases : Prop :=
  ∀ (o : Order) (k : LockKind) (s : State), Taken o s → lockKindArg o.args = some k →
    let c := o.console.toNat
    let i := Ident.console k c
    ∃ t, exec (.lock o) s = .next t
      ∧ (∀ l, findIdent i s.env.list = some l → t.slot.code = .done
          ∧ t.env.list = (if l.uncertain = true then settleIdent i s.env.list else s.env.list)
          ∧ (l.uncertain = false → t.store.records = s.store.records ∧ t.store.marks = s.store.marks
            ∧ t.store.queue = s.store.queue))
      ∧ (findIdent i s.env.list = none →
          (7 ≤ consoleCount s.env.list s.store → t.slot.code = .full ∧ t.env.list = s.env.list)
            ∧ (consoleCount s.env.list s.store < 7 → queueRefuses [i] s.store = true →
                t.slot.code = .busy ∧ t.env.list = s.env.list)
            ∧ (consoleCount s.env.list s.store < 7 → queueRefuses [i] s.store = false →
                t.slot.code = .done ∧ t.env.list = s.env.list ++ [newLock k (.console c)]
                  ∧ { kind := k, origin := Origin.console c } ∈ t.store.marks))

/-- A LOCK of kind DRIVE or ALL that places its record stops both axes, withdraws the claim and blocks a stow under way. -/
def Obligations.BlockingLockStopsTheDish : Prop :=
  ∀ (o : Order) (k : LockKind) (s : State), Taken o s → lockKindArg o.args = some k → k = .drive ∨ k = .all →
    findIdent (.console k o.console.toNat) s.env.list = none → consoleCount s.env.list s.store < 7 →
    queueRefuses [.console k o.console.toNat] s.store = false →
    let h := hearOrder o s
    ∃ t, exec (.lock o) s = .next t ∧ t.core.fee.claim.state = .none
      ∧ (∀ i : Axis, AtRest (getAxis t.core i) ∧ (getAxis t.core i).releasePending = false
          ∧ (isMoving (getAxis h.core i) = true → (getAxis t.core i).state = .stopping)
          ∧ (isMoving (getAxis h.core i) = false → (getAxis t.core i).state = (getAxis h.core i).state))
      ∧ t.core.stow.state =
        (if stowUnderWay h.core.stow.state = true then .blocked else h.core.stow.state)

/-- UNLOCK of kind k from console c removes the matching HELD record and the console's oldest UNCERTAIN one; without
either it is OWNER where another console holds the kind, and DONE otherwise. RELEASE removes the cold record alone. -/
def Obligations.UnlockAndReleaseOrders : Prop :=
  ∀ (o : Order) (s : State), Taken o s →
    (∀ k, lockKindArg o.args = some k →
      let ts := unlockTargets k o.console.toNat s.env.list
      ∃ t, exec (.unlock o) s = .next t
        ∧ (ts = [] → t.env.list = s.env.list
            ∧ t.slot.code = (if otherHolds k o.console.toNat s.env.list = true then .owner else .done))
        ∧ (¬ts = [] → queueRefuses (ts.map lockIdent) s.store = true → t.env.list = s.env.list ∧ t.slot.code = .busy)
        ∧ (¬ts = [] → queueRefuses (ts.map lockIdent) s.store = false → t.slot.code = .done
            ∧ (∀ l, l ∈ t.env.list ↔ l ∈ s.env.list ∧ ¬l ∈ ts)))
    ∧ (o.args = [] →
      ∃ t, exec (.release o) s = .next t
        ∧ (systemRecord s.env.list = none → t.slot.code = .done ∧ t.env.list = s.env.list)
        ∧ (∀ l, systemRecord s.env.list = some l → l.kind = .all → t.slot.code = .state ∧ t.env.list = s.env.list)
        ∧ (∀ l, systemRecord s.env.list = some l → ¬l.kind = .all → t.slot.code = .done
            ∧ ∀ r, r ∈ t.env.list ↔ r ∈ s.env.list ∧ ¬r.origin = .system))

/-- A HEAT order is accepted with DONE in every state; the mode it names is in force and stored; the axes' motion, the
stow causes and the lockout list are left alone. -/
def Obligations.HeatOrderSetsMode : Prop :=
  ∀ (o : Order) (m : HeatMode) (s : State), Taken o s → heatModeArg o.args = some m →
    let h := hearOrder o s
    ∃ t, exec (.heat o) s = .next t ∧ t.slot.code = .done ∧ t.core.heat.mode = m ∧ t.store.heat = m
      ∧ t.env = h.env ∧ motion t.core.axes.az = motion h.core.axes.az ∧ motion t.core.axes.el = motion h.core.axes.el
      ∧ t.core.stow.causes = h.core.stow.causes
      ∧ (m = .off → ¬h.core.heat.mode = .off → heaterRuns s.env = true → t.core.heat.demand = 0)

/-- A CLEAR order is accepted with DONE. Each LATCHED condition of a named class becomes CLEAR and no other changes, but for
STOW_FAILED, AZ_RANGE, OVERLOAD and STOW_FORCED, which the stow and feeder work that follows may raise or end. With DRIVE
named, an axis in FAULT returns to BRAKED where none of its causes remains, and FAILED is re-evaluated where no axis remains
in FAULT and PIN_FEEDBACK has no cause. -/
def Obligations.ClearOrderClears : Prop :=
  ∀ (o : Order) (cs : BitVec 6) (s : State), Taken o s → classSetArg o.args = some cs →
    let h := hearOrder o s
    let stays (i : Axis) : Prop := (getAxis h.core i).state = .fault ∧ faultRemains s.env i h.core = true
    ∃ t, exec (.clear o) s = .next t ∧ t.slot.code = .done
      ∧ (∀ c, ¬c = .stowFailed → ¬c = .azRange → ¬c = .overload → ¬c = .stowForced →
          condAt t.core.cond c =
            (if condAt h.core.cond c = .latched ∧ inClassSet (classOf c) cs = true then .clear
              else condAt h.core.cond c))
      ∧ (inClassSet .drive cs = false → motion t.core.axes.az = motion h.core.axes.az
          ∧ motion t.core.axes.el = motion h.core.axes.el ∧ t.core.stow.causes = h.core.stow.causes)
      ∧ (inClassSet .drive cs = true → ∀ i : Axis,
          (stays i → (getAxis t.core i).state = .fault)
          ∧ (¬h.core.stow.state = .failed →
            ((getAxis h.core i).state = .fault → ¬stays i →
              (getAxis t.core i).state = .braked ∧ (getAxis t.core i).target = .none
                ∧ (getAxis t.core i).x = readingOf (getAxis h.core i))
            ∧ (¬(getAxis h.core i).state = .fault → motion (getAxis t.core i) = motion (getAxis h.core i))))
      ∧ (inClassSet .drive cs = true → h.core.stow.state = .failed →
          ((stays .az ∨ stays .el ∨ condAt h.core.cond .pinFeedback = .active) → t.core.stow.state = .failed)
          ∧ (¬stays .az → ¬stays .el → ¬condAt h.core.cond .pinFeedback = .active →
            (blocking s.env.list = true → t.core.stow.state = .blocked)
            ∧ (blocking s.env.list = false →
              (pinEngaged s.env = true → pinRetracted s.env = false → inWindow h.core = true →
                t.core.stow.state = .stowed)
              ∧ (¬(pinEngaged s.env = true ∧ pinRetracted s.env = false ∧ inWindow h.core = true) →
                (pinIsIn s.env = false → t.core.stow.state = .pinning ∧ t.core.stow.pin = .drivenOut)
                ∧ (pinIsIn s.env = true → h.core.stow.causes = noCauses → t.core.stow.state = .clear)
                ∧ (pinIsIn s.env = true → ¬h.core.stow.causes = noCauses → s.env.inputs.ampFault = false →
                  t.core.stow.state = .demanded ∨ t.core.stow.state = .moving)))))

/-- A PROVE order: BUSY while a proof runs or in a posture other than IDLE and STOWED; otherwise DONE, and exactly the
proofs named start, the wind proof with an empty shadow ring and both counters at 0. -/
def Obligations.ProveOrderStartsProofs : Prop :=
  ∀ (o : Order) (w f : Bool) (s : State), Taken o s → proofTargetArg o.args = some (w, f) →
    let h := hearOrder o s
    ∃ t, exec (.prove o) s = .next t
      ∧ (mayProve h.env h.core = false → t.slot.code = .busy ∧ t.env = h.env ∧ t.core.cond = h.core.cond)
      ∧ (mayProve h.env h.core = true → t.slot.code = .done ∧ t.env.wind.proof.isSome = w
          ∧ t.core.cond.proof.isSome = f ∧ t.outputs.synthetic = w
          ∧ (w = true → t.env.wind.live = 0 ∧ t.env.wind.standby = 0 ∧ ∀ r, t.env.wind.proof = some r →
              r.ring = List.replicate 12 0 ∧ r.vote = .none ∧ r.bins = 0 ∧ r.atSwitch = h.env.wind.live
                ∧ r.synthetic = syntheticCount h.env.setup.secC))

/-! ## The array line and the peer table -/

/-- A well-formed beacon of another station becomes that station's FRESH record of age 0 where it is relevant and has a
record or finds a free slot. In a full table it evicts the oldest STALE record, or, with FEEDER relevance, the oldest without
it, of two of one age the one with the higher number; otherwise it is refused with TABLE_FULL. A record that has lost all
relevance goes, and with it the cause of TABLE_FULL. A malformed beacon, and one of no relevance without a record, leave the
table alone. Other stations' records stand, and the isolation timer restarts. -/
def Obligations.PeerBeaconIsStored : Prop :=
  ∀ (n : Byte) (l : List Byte) (a : SecA) (s : State), Live s → s.env.setup.secA = some a → l.length = 33 →
    ¬n.toNat = a.station → 1 ≤ n.toNat → n.toNat ≤ 64 →
    let p := peerOf a n.toNat (decodeBeacon l)
    let good := beaconWellFormed (decodeBeacon l)
    let leastOf (ps : List Peer) (q : Peer) : Prop :=
      q ∈ ps ∧ ∀ r ∈ ps, r.age < q.age ∨ (r.age = q.age ∧ r.station ≤ q.station)
    let stale := s.env.peers.filter fun q => !q.isFresh
    let foreign := s.env.peers.filter fun q => !q.relFeeder
    ∃ t, exec (.peerBeacon n l) s = .next t
      ∧ (s.env.setup.configured = true → t.core.line.isolationTimer = some 0 ∧ t.core.stow.causes.isolation = false)
      ∧ (good = false → t.env.peers = s.env.peers)
      ∧ (findPeer n.toNat s.env.peers = none → isRelevant p = false → t.env.peers = s.env.peers)
      ∧ (good = true → isRelevant p = true →
          (findPeer n.toNat s.env.peers).isSome = true ∨ s.env.peers.length < 24 →
          findPeer n.toNat t.env.peers = some p ∧ p.isFresh = true ∧ p.age = 0
            ∧ ∀ m, ¬m = n.toNat → findPeer m t.env.peers = findPeer m s.env.peers)
      ∧ (good = true → isRelevant p = false → (findPeer n.toNat s.env.peers).isSome = true →
          findPeer n.toNat t.env.peers = none ∧ ¬condAt t.core.cond .tableFull = .active
            ∧ ∀ m, ¬m = n.toNat → findPeer m t.env.peers = findPeer m s.env.peers)
      ∧ (good = true → isRelevant p = true → findPeer n.toNat s.env.peers = none → 24 ≤ s.env.peers.length →
          (¬stale = [] → ∃ q, leastOf stale q ∧ findPeer n.toNat t.env.peers = some p
            ∧ findPeer q.station t.env.peers = none
            ∧ ∀ m, ¬m = n.toNat → ¬m = q.station → findPeer m t.env.peers = findPeer m s.env.peers)
          ∧ (stale = [] → p.relFeeder = true → ¬foreign = [] → ∃ q, leastOf foreign q
            ∧ findPeer n.toNat t.env.peers = some p ∧ findPeer q.station t.env.peers = none
            ∧ ∀ m, ¬m = n.toNat → ¬m = q.station → findPeer m t.env.peers = findPeer m s.env.peers)
          ∧ (stale = [] → p.relFeeder = false ∨ foreign = [] →
            t.env.peers = s.env.peers ∧ condAt t.core.cond .tableFull = .active))

/-- A beacon with the own number that the station did not send makes DUPLICATE ACTIVE, the transmitter SILENT and the
duplicate timer run afresh; entered from another state the rest, the abort count and the hold-off end. -/
def Obligations.OwnNumberBeaconSilences : Prop :=
  ∀ s : State, Live s → receiving s.env = true → driving s.core.line = false →
    ∃ t, exec .ownNumberBeacon s = .next t ∧ condAt t.core.cond .duplicate = .active
      ∧ t.core.line.tx = .silent ∧ t.core.line.duplicateTimer = some 0
      ∧ (s.core.line.pending.isSome = true → t.core.line.pending.isSome = true)
      ∧ (¬s.core.line.tx = .silent → t.core.line.silence = .duplicate ∧ t.core.line.restTimer = none
          ∧ t.core.line.aborts = 0 ∧ t.core.line.holdOff = none)

/-- A frame read off the line. An intact one is taken by its kind and origin, every field from its place, whatever its
priority: a beacon as PEER_BEACON takes it, an order as the row of its kind, and any other kind is ignored. A discarded frame
and a stray each count once towards the noise count, which stops at 32; at 16 and above LINE_NOISE goes ACTIVE, and nothing of
the frame is handed on. -/
def Obligations.NoiseIsCounted : Prop :=
  (∀ (f : RawFrame) (s : State), frameIntact f = true →
    (kindOfFrame f = 5 → exec (.discardedFrame f) s = exec (.peerBeacon (originOfFrame f) f.payload) s)
    ∧ (kindOfFrame f = 9 → exec (.discardedFrame f) s = exec (.undefinedOrderKind (originOfFrame f) f.payload) s)
    ∧ (¬kindOfFrame f = 5 → ¬kindOfFrame f = 9 →
      ∃ t, exec (.discardedFrame f) s = .next t ∧ t.env = s.env ∧ t.slot = s.slot ∧ t.core.axes = s.core.axes
        ∧ t.core.stow = s.core.stow ∧ t.core.heat = s.core.heat ∧ t.core.fee = s.core.fee ∧ t.core.cond = s.core.cond
        ∧ t.core.line.noise = s.core.line.noise ∧ t.core.line.isolationTimer = s.core.line.isolationTimer))
  ∧ (∀ (console tag scope number kind : Byte) (args : List Byte) (c : Instr) (s : State),
      rowOfKind kind { console := console, tag := tag, scope := scope, number := number, args := args } = some c →
      exec (.undefinedOrderKind console (tag :: scope :: number :: kind :: args)) s = exec c s)
  ∧ (∀ (c : Instr) (s : State), (c = .stray ∨ ∃ f, c = .discardedFrame f ∧ frameIntact f = false) → Live s →
      receiving s.env = true → driving s.core.line = false →
      ∃ t, exec c s = .next t ∧ t.core.line.noise = min 32 (s.core.line.noise + 1)
        ∧ (16 ≤ s.core.line.noise + 1 → condAt t.core.cond .lineNoise = .active)
        ∧ t.env = s.env ∧ t.slot = s.slot ∧ t.core.fee = s.core.fee
        ∧ t.core.line.isolationTimer = s.core.line.isolationTimer)

/-- A transmission begins from GAP with a gap long enough: the pending beacon is taken and the frame holds the beacon as
the blocks stand now, with its CRC and the class notices it carries. -/
def Obligations.TransmissionTakesBeacon : Prop :=
  ∀ (gap : Nat) (a : SecA) (p : Priority) (s : State), Live s → s.env.setup.secA = some a →
    s.env.setup.configured = true → s.core.line.tx = .gap → s.core.line.pending = some p →
    15 + s.core.line.holdOff.getD 0 ≤ gap →
    ∃ t, exec (.transmissionStart gap) s = .next t ∧ t.core.line.tx = .arbitrating ∧ t.core.line.pending = none
      ∧ t.outputs.lineDriven = true ∧ t.core.axes = s.core.axes ∧ t.core.cond = s.core.cond
      ∧ ∃ f, t.core.line.frame = some f ∧ f.payload = encodeBeacon (beaconOf s.env a s.slot s.core) ∧ f.priority = p
        ∧ f.crc = beaconCrc a p f.payload ∧ f.notices = s.core.cond.notices

/-- Lost arbitration returns the beacon and enters GAP; a level read otherwise than sent starts the break; the break's
end counts one abort and returns the beacon; the sixteenth brings TX_FAULT and a rest. -/
def Obligations.TransmitterBacksOff : Prop :=
  ∀ (s : State) (f : Frame), Live s → s.core.line.frame = some f →
    (∀ word : BitVec 15, s.core.line.tx = .arbitrating → losesTo s.env s.core.line word = true →
      ∃ t, exec (.lostArbitration word) s = .next t ∧ t.core.line.tx = .gap ∧ t.core.line.frame = none
        ∧ t.core.line.pending.isSome = true ∧ t.core.cond = s.core.cond)
    ∧ (s.core.line.tx = .arbitrating ∨ s.core.line.tx = .sending →
      ∃ t, exec .abort s = .next t ∧ t.core.line.tx = .aborting ∧ t.core.line.frame = some f)
    ∧ (s.core.line.tx = .aborting →
      ∃ t, exec .breakEnd s = .next t ∧ t.core.line.frame = none ∧ t.core.line.pending.isSome = true
        ∧ (s.core.line.aborts + 1 < 16 → t.core.line.tx = .gap ∧ t.core.line.aborts = s.core.line.aborts + 1)
        ∧ (16 ≤ s.core.line.aborts + 1 → t.core.line.tx = .resting ∧ t.core.line.restTimer = some 0
            ∧ t.core.line.abortedCrc = f.crc ∧ condAt t.core.cond .txFault = .active))

/-- The rest's end, the duplicate timer's, the isolation timer's, the interval in force reached, and a second of the noise
count. -/
def Obligations.LineTimersRunOut : Prop :=
  ∀ s : State, Live s →
    (s.core.line.tx = .resting → expired s.core.line.restTimer 1000 = true →
      ∃ t, exec .restTimerExpiry s = .next t ∧ t.core.line.aborts = 0 ∧ t.core.line.restTimer = none
        ∧ t.core.line.holdOff = some (s.core.line.abortedCrc.toNat % 256)
        ∧ t.core.line.tx = (if s.core.line.pending.isSome = true then .gap else .idle))
    ∧ (expired s.core.line.duplicateTimer 30000 = true →
      ∃ t, exec .duplicateTimerExpiry s = .next t ∧ t.core.line.silence = .none ∧ t.core.line.tx = .gap
        ∧ t.core.line.pending.isSome = true ∧ t.core.line.duplicateTimer = none
        ∧ ¬condAt t.core.cond .duplicate = .active)
    ∧ (expired s.core.line.isolationTimer (s.env.setup.secC.isolation * 1000) = true →
      ∃ t, exec .isolationTimerExpiry s = .next t ∧ condAt t.core.cond .isolated = .active
        ∧ t.core.stow.causes = { s.core.stow.causes with isolation := true } ∧ t.core.line.isolationTimer = none)
    ∧ (intervalReached s.env s.core = true → s.core.line.dueTaken = false →
      ∃ t, exec .beaconIntervalDue s = .next t ∧ t.core.line.pending.isSome = true ∧ ¬t.core.line.tx = .idle
        ∧ t.core.cond = s.core.cond)
    ∧ (∃ t, exec .noiseDecay s = .next t ∧ t.core.line.noise = s.core.line.noise - 1
        ∧ (s.core.line.noise ≤ 1 → ¬condAt t.core.cond .lineNoise = .active) ∧ t.core.axes = s.core.axes)

/-- A complete beacon returns the abort count to 0, restarts the beacon timer, clears the hold-off, ends the cause of
TX_FAULT, clears exactly the notices the frame carried, and leaves GAP or IDLE. -/
def Obligations.CompleteBeaconServes : Prop :=
  ∀ (s : State) (f : Frame), Live s → s.core.line.frame = some f →
    s.core.line.tx = .arbitrating ∨ s.core.line.tx = .sending →
    ∃ t, exec .beaconComplete s = .next t ∧ t.core.line.aborts = 0 ∧ t.core.line.beaconTimer = some 0
      ∧ t.core.line.holdOff = none ∧ t.core.line.frame = none ∧ ¬condAt t.core.cond .txFault = .active
      ∧ t.core.cond.notices = s.core.cond.notices &&& ~~~f.notices
      ∧ t.core.line.tx = (if s.core.line.pending.isSome = true then .gap else .idle)
      ∧ (f.present = true → s.core.fee.claim.state = .waiting → s.core.fee.claim.announced = none →
          t.core.fee.claim.announced = some s.env.now)

/-- A FRESH record whose age has reached its stale age becomes STALE with its fields kept; a record whose age has
reached its expiry age is removed and the cause of TABLE_FULL ends. Other stations' records are left alone. -/
def Obligations.PeerRecordsAge : Prop :=
  ∀ (n : Nat) (p : Peer) (s : State), Live s → findPeer n s.env.peers = some p →
    (p.isFresh = true → 3 * 2 ^ p.exponent ≤ p.age * 100 →
      ∃ t, exec (.peerStale n) s = .next t ∧ findPeer n t.env.peers = some { p with isFresh := false }
        ∧ ∀ m, ¬m = n → findPeer m t.env.peers = findPeer m s.env.peers)
    ∧ (8 * 2 ^ p.exponent ≤ p.age * 100 →
      ∃ t, exec (.peerExpiry n) s = .next t ∧ findPeer n t.env.peers = none
        ∧ ¬condAt t.core.cond .tableFull = .active
        ∧ ∀ m, ¬m = n → findPeer m t.env.peers = findPeer m s.env.peers)

/-! ## Axes -/

/-- A control interval. Its 10 ms pass. Its samples are stored: the limit switches; the amplifier fault input, but in PARKED,
where it keeps its level (log 64); the brake and zone feedback and the pin filters, but at an odd sample of a feedback proof,
which leaves them alone; the key filters once section A is installed; the precipitation input while the heater runs. With the
encoders on, a read that is not answered with a good check and a read beyond the jump limit put the axis in FAULT with its
reading kept, while a good read of an axis without the fault cause becomes its reading. Where axis processing runs, both
axes' position, rate, carry, last demand, phase, load, duty and follow timer are then those of R9 to R15 on the blocks as
the sampling and the reads leave them, which after two good reads leave the axes' motion alone; a PARKED station's axes stay
where they are. The loads are handed to the feeder account; a claim ACTIVE before ends where neither axis is in ACCEL. In
DEMANDED and MOVING the state becomes PINNING, with the pin driven out and no claim WAITING, where the elevation has arrived,
and stays otherwise. The order of sampling, reads, axis work, loads and tests is the model's choice (logs 55, 61, 67 and 68). -/
def Obligations.ControlIntervalSamples : Prop :=
  ∀ (x : Samples) (s : State), Live s →
    let proof := s.core.cond.proof
    let before := s.env.inputs
    let good : Prop := ∀ j : Axis, ∃ u, encoderAngle s.env j (sampleOf x j).encoder = some u
      ∧ withinJump s.env j (getAxis s.core j) u = true
    let read := readEncoders x (sampleAll x (advance (toIntervalEnd s.env.now) s))
    ∃ t, exec (.controlInterval x) s = .next t
      ∧ t.env.now % 10 = 0 ∧ s.env.now < t.env.now ∧ t.env.now ≤ s.env.now + 10
      ∧ t.env.inputs.azLow = x.az.lowLimit ∧ t.env.inputs.azHigh = x.az.highLimit
      ∧ t.env.inputs.elLow = x.el.lowLimit ∧ t.env.inputs.elHigh = x.el.highLimit
      ∧ (¬s.core.stow.park = .parked → t.env.inputs.ampFault = x.ampFault)
      ∧ (s.core.stow.park = .parked → t.env.inputs.ampFault = before.ampFault)
      ∧ (isOddSample proof = false →
          t.env.inputs.azReleased = x.az.brakeReleased ∧ t.env.inputs.elReleased = x.el.brakeReleased
            ∧ t.env.inputs.zoneClosed = x.zoneClosed
            ∧ t.env.inputs.pinEngaged = filterSample 50 10 (sampleMs proof) x.pinEngaged before.pinEngaged
            ∧ t.env.inputs.pinRetracted = filterSample 50 10 (sampleMs proof) x.pinRetracted before.pinRetracted)
      ∧ (isOddSample proof = true →
          t.env.inputs.azReleased = before.azReleased ∧ t.env.inputs.elReleased = before.elReleased
            ∧ t.env.inputs.zoneClosed = before.zoneClosed ∧ t.env.inputs.pinEngaged = before.pinEngaged
            ∧ t.env.inputs.pinRetracted = before.pinRetracted)
      ∧ (∀ a, s.env.setup.secA = some a → ∀ n : Fin 4,
          fourGet t.env.inputs.keys n
            = filterSample 50 0 10 (keyActive (fourGet a.keys n).sense (fourGet x.keyHigh n)) (fourGet before.keys n))
      ∧ (s.env.setup.secA = none → t.env.inputs.keys = before.keys)
      ∧ (heaterRuns s.env = true → t.env.inputs.wetLevel = x.wet
          ∧ t.env.inputs.wetHeld = (if before.wetLevel = x.wet then min 2000 (before.wetHeld + 10) else 0))
      ∧ (heaterRuns s.env = false → t.env.inputs.wetLevel = before.wetLevel ∧ t.env.inputs.wetHeld = before.wetHeld)
      ∧ t.env.list = s.env.list.map (ageLock (t.env.now - s.env.now))
      ∧ (¬s.env.setup.statusD = .unread → ¬s.core.stow.park = .parked → ∀ i : Axis,
          let r := getAxis s.core i
          let v := encoderAngle s.env i (sampleOf x i).encoder
          (v = none ∨ (∃ u, v = some u ∧ withinJump s.env i r u = false) →
            (getAxis t.core i).state = .fault ∧ (getAxis t.core i).reading = r.reading
              ∧ (getAxis t.core i).encoderFault = true ∧ (getAxis t.core i).recovery = 0)
          ∧ (∀ u, v = some u → withinJump s.env i r u = true → r.encoderFault = false →
            (getAxis t.core i).reading = some u ∧ (getAxis t.core i).encoderFault = false))
      ∧ (s.core.stow.park = .run → s.env.setup.encodersRead = true → axesRun read.env read.core = true)
      ∧ (axesRun read.env read.core = true → ∀ i : Axis,
          let n := axisInterval read.env read.core i
          let r := getAxis t.core i
          r.x = n.x ∧ r.v = n.v ∧ r.carry = n.carry ∧ r.lastDemand = n.lastDemand ∧ r.phase = n.phase
            ∧ r.load = n.load ∧ r.duty = n.duty ∧ r.followTimer = n.followTimer ∧ r.reading = n.reading)
      ∧ (s.env.setup.encodersRead = true → good → read.env.now = t.env.now ∧ ∀ i : Axis,
          let n := getAxis read.core i
          let r := getAxis s.core i
          n.state = r.state ∧ n.target = r.target ∧ n.x = r.x ∧ n.v = r.v ∧ n.carry = r.carry
            ∧ n.lastDemand = r.lastDemand ∧ n.fresh = r.fresh ∧ n.followTimer = r.followTimer)
      ∧ (s.core.stow.park = .parked → ∀ i : Axis,
          let n := getAxis t.core i
          let r := getAxis s.core i
          n.x = r.x ∧ n.v = r.v ∧ n.carry = r.carry ∧ n.lastDemand = r.lastDemand ∧ n.reading = r.reading)
      ∧ t.core.fee.loadAz = t.core.axes.az.load ∧ t.core.fee.loadEl = t.core.axes.el.load
      ∧ (s.core.fee.claim.state = .active →
          t.core.fee.claim.state =
            (if t.core.axes.az.phase = .accel ∨ t.core.axes.el.phase = .accel then .active else .none))
      ∧ (s.env.setup.configured = true → (s.core.stow.state = .demanded ∨ s.core.stow.state = .moving) → good →
          (arrived t.core = true → t.core.stow.state = .pinning ∧ t.core.stow.pin = .drivenOut
            ∧ t.core.stow.pinTimer = some 0 ∧ ¬t.core.fee.claim.state = .waiting)
          ∧ (arrived t.core = false → t.core.stow.state = .demanded ∨ t.core.stow.state = .moving))

/-- Four fault causes of an axis: a follow error of 500 ms, a brake timeout, a brake mismatch of 500 ms and a limit
switch each put an axis that is not in FAULT into FAULT at once, its profile reset to its encoder reading; the limit
and brake conditions are ACTIVE, the follow condition's cause has ended on entry. -/
def Obligations.AxisFaultCauses : Prop :=
  ∀ (i : Axis) (s : State), Live s → ¬(getAxis s.core i).state = .fault →
    (500 ≤ (getAxis s.core i).followTimer →
      ∃ t, exec (.followTimeout i) s = .next t ∧ motion (getAxis t.core i) = motion (faultedAxis (getAxis s.core i))
        ∧ condAt t.core.cond (.follow i) = .latched)
    ∧ (brakeExpired (getAxis s.core i) = true →
      ∃ t, exec (.brakeTimeout i) s = .next t ∧ motion (getAxis t.core i) = motion (faultedAxis (getAxis s.core i))
        ∧ condAt t.core.cond (.brake i) = .active)
    ∧ (500 ≤ (getAxis s.core i).mismatchTimer →
      ∃ t, exec (.brakeMismatch i) s = .next t ∧ motion (getAxis t.core i) = motion (faultedAxis (getAxis s.core i))
        ∧ condAt t.core.cond (.brake i) = .active)
    ∧ (∀ upper : Bool,
      ∃ t, exec (.limitSwitch i upper) s = .next t
        ∧ motion (getAxis t.core i) = motion (faultedAxis (getAxis s.core i))
        ∧ condAt t.core.cond (.limit i) = .active ∧ limitActive t.env i = true)

/-- The amplifier fault input makes AMP_FAULT ACTIVE and faults every axis in UNBRAKING, ACTIVE or STOPPING; a BRAKED
axis keeps its state. A PARKED station does not act on it; that it keeps the level it has of the input is the model's choice
(log 64). -/
def Obligations.AmplifierFaultStopsMovingAxes : Prop :=
  ∀ s : State, Live s →
    (¬s.core.stow.park = .parked →
      ∃ t, exec .ampFaultInput s = .next t ∧ condAt t.core.cond .ampFault = .active ∧ t.env.inputs.ampFault = true
        ∧ ∀ i : Axis, (getAxis t.core i).state =
            (if (getAxis s.core i).state = .braked then .braked else .fault))
    ∧ (s.core.stow.park = .parked →
      ∃ t, exec .ampFaultInput s = .next t ∧ t.core.axes = s.core.axes ∧ t.core.cond = s.core.cond ∧ t.env = s.env)

/-- Brake feedback and the axis timers: released in time, an UNBRAKING axis is ACTIVE with its target; engaged in time,
an engaging axis is BRAKED, and with a release pending goes on to UNBRAKING with its target unless a release is prohibited;
the idle-brake time stops a holding axis, at rest with its brake de-energised at once (log 29); the tenth good read becomes
the encoder reading; one second within the window sets the on-source flag. -/
def Obligations.AxisEventsComplete : Prop :=
  ∀ (i : Axis) (s : State), Live s →
    let r := getAxis s.core i
    (r.state = .unbraking → brakeExpired r = false →
      ∃ t, exec (.brakeReleasedFeedback i) s = .next t ∧ (getAxis t.core i).state = .active
        ∧ (getAxis t.core i).target = r.target ∧ (getAxis t.core i).brakeTimer = none
        ∧ (getAxis t.core i).followTimer = 0 ∧ (getAxis t.core i).x = r.x)
    ∧ (r.state = .stopping → r.engaging = true → brakeExpired r = false → r.releasePending = false →
      ∃ t, exec (.brakeEngagedFeedback i) s = .next t ∧ (getAxis t.core i).state = .braked
        ∧ (getAxis t.core i).load = 0 ∧ (getAxis t.core i).duty = 500 ∧ ampEnabled (getAxis t.core i) = false)
    ∧ (r.state = .stopping → r.engaging = true → brakeExpired r = false → r.releasePending = true →
      ∃ t, exec (.brakeEngagedFeedback i) s = .next t
        ∧ (releaseProhibited s.env s.core = true → (getAxis t.core i).state = .braked
          ∧ (getAxis t.core i).releasePending = true ∧ (getAxis t.core i).target = r.target)
        ∧ (releaseProhibited s.env s.core = false → s.env.inputs.ampFault = false →
          (getAxis t.core i).state = .unbraking ∧ (getAxis t.core i).releasePending = false
            ∧ (getAxis t.core i).target = r.target ∧ (getAxis t.core i).brakeTimer = some 0))
    ∧ (r.state = .active → expired r.idleTimer (s.env.setup.secB.idleBrake * 1000) = true →
      ∃ t, exec (.idleBrakeExpiry i) s = .next t ∧ (getAxis t.core i).state = .stopping
        ∧ (getAxis t.core i).target = .none ∧ (getAxis t.core i).engaging = decide (r.v = 0))
    ∧ (r.encoderFault = true → 10 ≤ r.recovery →
      ∃ t, exec (.encoderRecovered i) s = .next t ∧ (getAxis t.core i).reading = r.answered
        ∧ (getAxis t.core i).encoderFault = false ∧ ¬condAt t.core.cond (.encoder i) = .active
        ∧ (getAxis t.core i).state = r.state)
    ∧ (1000 ≤ s.core.axes.onSourceTimer →
      ∃ t, exec .onSourceSet s = .next t ∧ t.core.axes = { s.core.axes with onSource := true })

/-! ## Stow unit -/

/-- A pin input that has shown one level for 50 ms is taken at it. In PINNING with the pin engaged, not retracted and
the reading in the window the state becomes STOWED with both axes stopping; in RELEASING with the pin retracted and not
engaged it becomes CLEAR with the pin off. Both asserted, or the pin engaged out of the window, make it FAILED with
PIN_FEEDBACK; STOWED without the pin goes back to PINNING, or to BLOCKED under a blocking record. -/
def Obligations.PinInputIsTaken : Prop :=
  ∀ (p : PinInput) (s : State), Live s → 50 ≤ (pinFilter s.env.inputs p).held →
    ∃ t, exec (.pinInputTaken p) s = .next t
      ∧ (pinFilter t.env.inputs p).taken = some (pinFilter s.env.inputs p).level
      ∧ (s.env.setup.configured = true → s.core.stow.state = .pinning → pinEngaged t.env = true →
          pinRetracted t.env = false → inWindow s.core = true →
          t.core.stow.state = .stowed ∧ t.core.stow.pin = .off ∧ t.outputs.stowed = true
            ∧ AtRest t.core.axes.az ∧ AtRest t.core.axes.el)
      ∧ (s.env.setup.configured = true → s.core.stow.state = .releasing → pinRetracted t.env = true →
          pinEngaged t.env = false → t.core.stow.state = .clear ∧ t.core.stow.pin = .off)
      ∧ (s.env.setup.configured = true → pinEngaged t.env = true →
          (s.core.stow.state = .pinning ∧ (pinRetracted t.env = true ∨ inWindow s.core = false))
            ∨ (s.core.stow.state = .stowed ∧ inWindow s.core = false)
            ∨ (s.core.stow.state = .releasing ∧ pinRetracted t.env = true) →
          t.core.stow.state = .failed ∧ t.core.stow.pin = .off ∧ condAt t.core.cond .pinFeedback = .active)
      ∧ (s.env.setup.configured = true → s.core.stow.state = .stowed → pinEngaged t.env = false →
          t.core.stow.state = (if blocking s.env.list = true then .blocked else .pinning))
      ∧ (s.env.setup.configured = false → t.core.stow.state = s.core.stow.state)

/-- The pin timer's expiry in PINNING or RELEASING: the pin off, PIN_FEEDBACK raised, the state FAILED, the axes
keeping their states and targets. The release hold timer's expiry stops it. -/
def Obligations.StowTimersRunOut : Prop :=
  ∀ s : State, Live s →
    (s.core.stow.state = .pinning ∨ s.core.stow.state = .releasing →
      expired s.core.stow.pinTimer (s.env.setup.secB.pinLimit * 1000) = true →
      ∃ t, exec .pinTimeout s = .next t ∧ t.core.stow.state = .failed ∧ t.core.stow.pin = .off
        ∧ t.core.stow.pinTimer = none ∧ ¬condAt t.core.cond .pinFeedback = .clear
        ∧ (pinDefined s.env s.core = false → condAt t.core.cond .pinFeedback = .active)
        ∧ motion t.core.axes.az = motion s.core.axes.az ∧ motion t.core.axes.el = motion s.core.axes.el)
    ∧ (expired s.core.stow.holdTimer (s.env.setup.secC.releaseHold * 60000) = true →
      ∃ t, exec .releaseHoldExpiry s = .next t ∧ t.core.stow = { s.core.stow with holdTimer := none }
        ∧ t.core.axes = s.core.axes)

/-- The wake settle time ends: the park state is RUN, each axis resumes at its encoder reading with rate and carry 0, and
a pending release goes to RELEASING exactly where its checks hold. -/
def Obligations.WakeSettleEnds : Prop :=
  ∀ s : State, Live s → s.core.stow.park = .waking →
    expired s.core.stow.settleTimer s.env.setup.secB.wakeSettle = true →
    ∃ t, exec .wakeSettleEnd s = .next t ∧ t.core.stow.park = .run ∧ t.core.stow.pendingRelease = false
      ∧ (∀ i : Axis, (getAxis t.core i).x = readingOf (getAxis s.core i) ∧ (getAxis t.core i).v = 0
          ∧ (getAxis t.core i).carry = 0 ∧ (getAxis t.core i).lastDemand = readingOf (getAxis s.core i))
      ∧ (s.core.stow.state = .stowed → s.env.inputs.ampFault = false →
          t.core.stow.state =
            (if s.core.stow.pendingRelease = true ∧ s.core.stow.causes = noCauses ∧ blocking s.env.list = false
                ∧ someFault s.core = false then .releasing else .stowed))

/-! ## Wind watch -/

/-- A pulse adds 1 to the counter that the input stage feeds, which stops at 1,023. At the grace timer's expiry the grace
has ended and BLIND is evaluated for the first time. -/
def Obligations.PulsesAndGrace : Prop :=
  ∀ s : State, Live s →
    (s.env.wind.binClock.isSome = true →
      ∃ t, exec .anemometerPulse s = .next t
        ∧ (s.env.wind.proof = none →
            t.env.wind = { s.env.wind with live := min 1023 (s.env.wind.live + 1) })
        ∧ (s.env.wind.proof.isSome = true →
            t.env.wind = { s.env.wind with standby := min 1023 (s.env.wind.standby + 1) })
        ∧ t.core.axes = s.core.axes ∧ t.core.stow = s.core.stow)
    ∧ (expired s.env.wind.grace (graceMs s.env) = true →
      ∃ t, exec .graceExpiry s = .next t ∧ t.env.wind.grace = none
        ∧ t.core.stow.causes.blind =
            (!s.env.wind.usable && !((windPeersFresh s.env).any fun p => !(p.vote = .none)))
        ∧ t.core.stow.causes.windPeers = peersCause s.env s.env.wind.usable
        ∧ t.core.stow.causes.windLocal = s.env.wind.outLocal ∧ t.env.wind.ring = s.env.wind.ring)

/-- A bin end, under whichever name it comes: the counters return to 0, the bin's speed joins the ring, and with twelve
speeds the gust is their mean; a block of sixty joins the block ring; the mean is that of the stored blocks, and the gust while
none is stored. -/
def Obligations.BinEndFormsGustAndMean : Prop :=
  ∀ (c : Instr) (lost : Nat) (s : State), Live s → s.env.wind.binClock.isSome = true →
    (c = .binEnd lost ∨ (c = .gustValid lost ∧ gustFalls s.env.wind = true)
      ∨ (c = .blockEnd lost ∧ blockFalls s.env.wind = true) ∨ (c = .stallExpiry lost ∧ stallFalls s = true)
      ∨ (c = .windProofVerdict lost ∧ verdictFalls lost s = true)) →
    let speed := binSpeed s.env.setup.secC (binCount s.env.wind)
    let ring := pushRing 12 s.env.wind.ring speed
    ∃ t, exec c s = .next t ∧ t.env.wind.live = 0 ∧ t.env.wind.standby = 0 ∧ t.env.wind.ring = ring
      ∧ (ring.length = 12 → t.env.wind.gust = total ring / 12 ∧ t.env.wind.gustValid = true)
      ∧ (¬ring.length = 12 → t.env.wind.gust = s.env.wind.gust ∧ t.env.wind.gustValid = s.env.wind.gustValid)
      ∧ (s.env.wind.blockBins = 59 →
          t.env.wind.blocks = pushRing 40 s.env.wind.blocks (s.env.wind.blockSum + speed)
            ∧ t.env.wind.blockSum = 0 ∧ t.env.wind.blockBins = 0
            ∧ t.env.wind.mean = total t.env.wind.blocks / (60 * t.env.wind.blocks.length))
      ∧ (¬s.env.wind.blockBins = 59 → t.env.wind.blocks = s.env.wind.blocks
          ∧ t.env.wind.blockSum = s.env.wind.blockSum + speed ∧ t.env.wind.blockBins = s.env.wind.blockBins + 1)
      ∧ (t.env.wind.blocks = [] →
          t.env.wind.mean = t.env.wind.gust ∧ t.env.wind.meanValid = t.env.wind.gustValid)
      ∧ (¬t.env.wind.blocks = [] →
          t.env.wind.mean = total t.env.wind.blocks / (60 * t.env.wind.blocks.length) ∧ t.env.wind.meanValid = true)

/-- What a bin end hands on: the derating flag by the effective gust, and the wind causes by the vote, the peers' votes
and blindness; the other causes stand. The stall and the proof verdict set their conditions. -/
def Obligations.BinEndHandsOn : Prop :=
  ∀ (lost : Nat) (s : State), Live s → s.env.wind.binClock.isSome = true →
    (∃ t, exec (.binEnd lost) s = .next t
      ∧ t.core.axes.derating = deratingFor s.env.setup.secC.derate t.env.wind.effective s.core.axes.derating
      ∧ t.core.stow.causes.windLocal = decide (t.env.wind.vote = .stow)
      ∧ t.core.stow.causes.windPeers =
          decide ((if t.env.wind.usable = true then s.env.setup.secC.quorum else 1) ≤ stowVotes s.env)
      ∧ t.core.stow.causes.blind =
          (!t.env.wind.usable && s.env.wind.grace.isNone && !((windPeersFresh s.env).any fun p => !(p.vote = .none)))
      ∧ t.env.wind.usable =
          (decide (¬condAt t.core.cond .anemoStall = .active) && decide (¬condAt t.core.cond .anemoProof = .active))
      ∧ t.core.stow.causes.isolation = s.core.stow.causes.isolation
      ∧ t.core.stow.causes.console = s.core.stow.causes.console
      ∧ t.env.list = s.env.list ∧ t.env.peers = s.env.peers)
    ∧ (stallFalls s = true →
      ∃ t, exec (.stallExpiry lost) s = .next t ∧ condAt t.core.cond .anemoStall = .active ∧ t.env.wind.usable = false
        ∧ t.env.wind.vote = .none)
    ∧ (∀ pass, verdictNow s.env.setup.secC lost s.env.wind = some pass →
      ∃ t, exec (.windProofVerdict lost) s = .next t ∧ t.env.wind.proof = none ∧ t.outputs.synthetic = false
        ∧ (pass = true → ¬condAt t.core.cond .anemoProof = .active)
        ∧ (pass = false → condAt t.core.cond .anemoProof = .active ∧ t.env.wind.vote = .none))

/-! ## Feeder account -/

/-- The three tests of a WAITING claim on the last figures: at the settle interval's passing and the fill time's end it
goes ACTIVE where R151 lets it; at the stow wait limit a STOW claim with its axes ACTIVE goes ACTIVE in any case, forced
where R151 would not have let it. A test that neither lets pass leaves the claim WAITING. -/
def Obligations.WaitingClaimIsAdmitted : Prop :=
  ∀ s : State, Live s → hasBudget s.env = true → s.core.fee.claim.state = .waiting →
    (claimSettled s.env s.core.fee.claim = true → s.core.fee.claim.settled = false → mayAdmit s.env s.core = true →
      ∃ t, exec .settleIntervalEnd s = .next t ∧ t.core.fee.claim.state = .active
        ∧ t.core.fee.claim.kind = s.core.fee.claim.kind ∧ t.core.fee.claim.waitAge = s.core.fee.claim.waitAge
        ∧ t.core.line.pending = some .urgent)
    ∧ (expired s.core.fee.fill (graceMs s.env) = true →
      mayAdmit s.env { s.core with fee := { s.core.fee with fill := none } } = true →
      ∃ t, exec .fillTimeEnd s = .next t ∧ t.core.fee.fill = none ∧ t.core.fee.claim.state = .active
        ∧ t.core.fee.claim.kind = s.core.fee.claim.kind ∧ t.core.line.pending = some .urgent)
    ∧ (s.core.fee.claim.kind = .stow → min 255 (s.env.setup.secC.stowWait * 10) ≤ s.core.fee.claim.waitAge →
      setActive s.core = true →
      ∃ t, exec .stowWaitLimit s = .next t ∧ t.core.fee.claim.state = .active ∧ t.core.fee.claim.kind = .stow
        ∧ t.core.fee.claim.forced = !mayAdmit s.env s.core
        ∧ (mayAdmit s.env s.core = false → condAt t.core.cond .stowForced = .active)
        ∧ (s.core.stow.state = .demanded → t.core.stow.state = .moving))
    ∧ (mayAdmit s.env s.core = false → mustForce s.env s.core = false →
      (∃ t, exec .settleIntervalEnd s = .next t ∧ t.core.fee.claim.state = .waiting
        ∧ t.core.fee.claim.waitAge = s.core.fee.claim.waitAge ∧ t.core.stow.state = s.core.stow.state)
      ∧ (∃ t, exec .stowWaitLimit s = .next t ∧ t.core.fee = s.core.fee ∧ t.core.stow = s.core.stow))
    ∧ (mayAdmit s.env { s.core with fee := { s.core.fee with fill := none } } = false →
      mustForce s.env s.core = false →
      ∃ t, exec .fillTimeEnd s = .next t ∧ t.core.fee.claim = s.core.fee.claim ∧ t.core.stow = s.core.stow)

/-! ## Lockout list -/

/-- A key taken, whether its activity has changed or not: as active without a record, its record of the configured kind is
placed as the newest; with a record of that kind, it is HELD in its place; with one of another kind, it is rewritten as the
newest; as inactive, its record goes. No quota and no waiting write refuses it, and no order removes a key's record. -/
def Obligations.KeyDecidesItsRecord : Prop :=
  (∀ (n : Fin 4) (a : SecA) (s : State), Live s → s.env.setup.secA = some a →
    50 ≤ (fourGet s.env.inputs.keys n).held →
    let kind := (fourGet a.keys n).kind
    let mine (l : Lock) : Bool := l.origin = .key n
    ∃ t, exec (.keyTaken n) s = .next t
      ∧ (fourGet t.env.inputs.keys n).taken = some (fourGet s.env.inputs.keys n).level
      ∧ ((fourGet s.env.inputs.keys n).level = false → t.env.list = s.env.list.filter fun l => !mine l)
      ∧ ((fourGet s.env.inputs.keys n).level = true →
          (s.env.list.find? mine = none → t.env.list = s.env.list ++ [newLock kind (.key n)])
          ∧ (∀ r, s.env.list.find? mine = some r →
            (r.kind = kind → t.env.list = s.env.list.map fun l => if mine l then { l with uncertain := false } else l)
            ∧ (¬r.kind = kind →
              t.env.list = (s.env.list.filter fun l => !mine l) ++ [newLock kind (.key n)])))
      ∧ ∀ l, ¬l.origin = .key n → (l ∈ t.env.list ↔ l ∈ s.env.list))
  ∧ (∀ (c : Instr) (s t : State), (orderCarried c).isSome = true → exec c s = .next t →
      ∀ l n, l.origin = .key n → l ∈ s.env.list → l ∈ t.env.list)

/-- The end of a record write: its open mark goes unless a later change of the identity waits, other identities' marks
stand, and the next waiting write begins. -/
def Obligations.RecordWriteEnds : Prop :=
  ∀ (i : Ident) (ms : Nat) (s : State), Live s → s.store.writing = some (i, ms) → 2 ≤ ms →
    ∃ t, exec .recordWriteEnd s = .next t
      ∧ t.store.marks =
          (if i ∈ s.store.queue then s.store.marks else s.store.marks.filter fun m => !(markIdent m = i))
      ∧ (s.store.queue = [] → t.store.writing = none ∧ t.store.records = s.store.records)
      ∧ (∀ j rest, s.store.queue = j :: rest → t.store.writing = some (j, 0) ∧ t.store.queue = rest
          ∧ t.store.records = writeContent s.env.list j s.store.records)
      ∧ t.env = s.env ∧ t.core.axes = s.core.axes

/-! ## Heater unit -/

/-- A poll round: an answer from −550 to 850 becomes the reading, returns the failed-poll count to 0 and ends the cause of
the sensor's condition; no answer, and one outside that range, leave the reading and add 1 to the count, which stops at 3;
for the fitted zones and for the ambient sensor alike. A zone that is not fitted is not polled. -/
def Obligations.PollRoundReadsSensors : Prop :=
  ∀ (a : PollAnswers) (s : State), Live s → heaterRuns s.env = true →
    let failed (x : Option Int) : Prop := ∀ v, x = some v → v < -550 ∨ 850 < v
    ∃ t, exec (.pollRound a) s = .next t
      ∧ (∀ z : Fin 4, fitted s.env z = true →
          (∀ v, fourGet a.zone z = some v → -550 ≤ v → v ≤ 850 →
            (fourGet t.core.heat.zones z).reading = some v ∧ (fourGet t.core.heat.zones z).fails = 0
              ∧ ¬condAt t.core.cond (.zoneSensor z) = .active)
          ∧ (failed (fourGet a.zone z) →
            (fourGet t.core.heat.zones z).reading = (fourGet s.core.heat.zones z).reading
              ∧ (fourGet t.core.heat.zones z).fails = min 3 ((fourGet s.core.heat.zones z).fails + 1)))
      ∧ (∀ z : Fin 4, fitted s.env z = false →
          (fourGet t.core.heat.zones z).reading = (fourGet s.core.heat.zones z).reading
            ∧ (fourGet t.core.heat.zones z).fails = (fourGet s.core.heat.zones z).fails)
      ∧ (∀ v, a.ambient = some v → -550 ≤ v → v ≤ 850 →
          t.core.heat.ambient = some v ∧ t.core.heat.ambientFails = 0 ∧ ¬condAt t.core.cond .ambientSensor = .active)
      ∧ (failed a.ambient → t.core.heat.ambient = s.core.heat.ambient
          ∧ t.core.heat.ambientFails = min 3 (s.core.heat.ambientFails + 1))
      ∧ motion t.core.axes.az = motion s.core.axes.az ∧ motion t.core.axes.el = motion s.core.axes.el

/-- Three failed polls raise the sensor's condition, 500 ms of disagreement the zone's feedback condition; either way a fitted
zone that is not already held off is held off with no demand and its contactor off. The ambient sensor's condition is raised
whichever zones are fitted, and the air then counts as −10.0 °C. -/
def Obligations.HeaterFaultsHoldZonesOff : Prop :=
  ∀ s : State, Live s →
    (3 ≤ s.core.heat.ambientFails →
      ∃ t, exec (.sensorFault .ambient) s = .next t ∧ condAt t.core.cond .ambientSensor = .active
        ∧ airTemperature t.core = -100 ∧ t.core.heat.mode = s.core.heat.mode)
    ∧ ∀ z : Fin 4, fitted s.env z = true →
      (3 ≤ (fourGet s.core.heat.zones z).fails →
        ∃ t, exec (.sensorFault (.zone z)) s = .next t ∧ condAt t.core.cond (.zoneSensor z) = .active
          ∧ (fourGet t.core.heat.zones z).demand = 0 ∧ (fourGet t.core.heat.zones z).output = 0
          ∧ (0 < (fourGet s.core.heat.zones z).cycle → (fourGet t.core.heat.zones z).on = false))
      ∧ (500 ≤ (fourGet s.core.heat.zones z).mismatch →
        ∃ t, exec (.zoneFeedbackTimeout z) s = .next t ∧ condAt t.core.cond (.zoneFeedback z) = .active
          ∧ (fourGet t.core.heat.zones z).demand = 0 ∧ (fourGet t.core.heat.zones z).output = 0
          ∧ (0 < (fourGet s.core.heat.zones z).cycle → (fourGet t.core.heat.zones z).on = false))

/-- A wet change is taken after 2 s and starts or stops the wet memory, whose expiry stops it; at a cycle start the phase
keeps the ms that have passed since that moment, and a fitted zone takes its output duty as cycle duty with the contactor
on for a positive on-time; at the on-time's end it is off. -/
def Obligations.HeaterTimersAndCycles : Prop :=
  ∀ (z : Fin 4) (s : State), Live s → heaterRuns s.env = true →
    (2000 ≤ s.env.inputs.wetHeld → ¬s.env.inputs.wetLevel = s.core.heat.wet →
      ∃ t, exec .wetChange s = .next t ∧ t.core.heat.wet = s.env.inputs.wetLevel
        ∧ t.core.heat.memory =
            (if s.env.inputs.wetLevel = true ∨ s.env.setup.secD.wetMemory = 0 then none else some 0))
    ∧ (expired s.core.heat.memory (s.env.setup.secD.wetMemory * 60000) = true →
      ∃ t, exec .wetMemoryExpiry s = .next t ∧ t.core.heat.memory = none ∧ t.core.heat.wet = s.core.heat.wet)
    ∧ (∃ t, exec (.cycleStart z) s = .next t ∧ (fourGet t.core.heat.zones z).untilFirst = none
        ∧ ((fourGet s.core.heat.zones z).untilFirst = none →
            (fourGet t.core.heat.zones z).phase = (fourGet s.core.heat.zones z).phase - cyclePeriod s.env)
        ∧ (¬(fourGet s.core.heat.zones z).untilFirst = none →
            (fourGet t.core.heat.zones z).phase = (fourGet s.core.heat.zones z).phase)
        ∧ (fitted s.env z = true →
            (fourGet t.core.heat.zones z).cycle = (fourGet s.core.heat.zones z).output
              ∧ (fourGet t.core.heat.zones z).on =
                  decide (0 < (fourGet s.core.heat.zones z).output * cyclePeriod s.env / 1000))
        ∧ ∀ y, ¬y = z → fourGet t.core.heat.zones y = fourGet s.core.heat.zones y)
    ∧ (onTimeOver s.env (fourGet s.core.heat.zones z) = true →
      ∃ t, exec (.onTimeEnd z) s = .next t
        ∧ fourGet t.core.heat.zones z = { fourGet s.core.heat.zones z with on := false }
        ∧ ∀ y, ¬y = z → fourGet t.core.heat.zones y = fourGet s.core.heat.zones y)

/-- The verdict at the end of a feedback proof's twenty samples: the proof ends, and PROOF_FEEDBACK has its cause exactly
where some item failed. -/
def Obligations.FeedbackVerdictFalls : Prop :=
  ∀ (p : FeedbackProof) (s : State), Live s → s.core.cond.proof = some p → 20 ≤ p.sample →
    ∃ t, exec .feedbackProofVerdict s = .next t ∧ t.core.cond.proof = none
      ∧ (proofFails s.env p = true → condAt t.core.cond .proofFeedback = .active)
      ∧ (proofFails s.env p = false → condAt t.core.cond .proofFeedback =
          (if condAt s.core.cond .proofFeedback = .active then .latched else condAt s.core.cond .proofFeedback))
      ∧ t.env = s.env ∧ t.slot = s.slot

/-! ## Resets and the start sequence -/

/-- RESET of 1 ms or more and a supply failure put every output at its safe level, stop the write in progress and empty
the queue; a shorter pulse is ignored. RESET, and a failure within the hold-up time of 200 ms, keep the records and the marks
of the retained store, and its marker but where an emptying was cut short; a longer failure leaves the marker invalid, but for
one close to the hold-up time, which may end either way. -/
def Obligations.ResetMakesSafe : Prop :=
  ∀ (ms : Nat) (cuts : ItemCuts) (ce lost : Bool) (s : State),
    let marker := s.store.valid && !(ce && s.store.emptying)
    (ms < 1 → exec (.resetAsserted ms cuts ce) s = .next s)
    ∧ (1 ≤ ms → ∃ t, exec (.resetAsserted ms cuts ce) s = .next t ∧ t.inReset = true ∧ t.outputs = safeOutputs
        ∧ t.store.writing = none ∧ t.store.queue = [] ∧ t.store.records = s.store.records
        ∧ t.store.marks = s.store.marks ∧ t.store.valid = marker)
    ∧ (∃ t, exec (.supplyFailure ms lost cuts ce) s = .next t ∧ t.inReset = true ∧ t.outputs = safeOutputs
        ∧ t.store.writing = none ∧ t.store.queue = []
        ∧ (ms ≤ 200 ∨ (lost = false ∧ ms ≤ 200 + Config.holdUpSpread) → t.store.records = s.store.records
            ∧ t.store.marks = s.store.marks ∧ t.store.valid = marker)
        ∧ (200 + Config.holdUpSpread < ms ∨ (200 < ms ∧ lost = true) → t.store.valid = false))

/-- The start instant: every block at its start values. A good store makes a warm start with the list rebuilt, the heat mode
and CONSOLE kept; any other a power-on with the cold record alone, whose placing requests the first beacon. -/
def Obligations.StartInstantDecides : Prop :=
  ∀ s : State, s.inReset = true →
    let axis : AxisRec :=
      { state := .braked, engaging := false, target := .none, x := 0, v := 0, carry := 0, lastDemand := 0,
        reading := none, answered := none, phase := .rest, load := 0, releasePending := false, followTimer := 0,
        brakeTimer := none, brakeSeen := false, idleTimer := none, mismatchTimer := 0, recovery := 0,
        encoderFault := false, fresh := false, duty := 500 }
    let zone : Zone :=
      { reading := none, fails := 0, demand := 0, power := 0, output := 0, cycle := 0, phase := 0, untilFirst := none,
        on := false, mismatch := 0 }
    let claim : Claim :=
      { kind := .none, state := .none, accAz := false, accEl := false, amount := 0, need := 0, waitAge := 0,
        waitSub := 0, announced := none, settled := false, announcedAge := 0, degraded := false, forced := false }
    let line (tx : Transmitter) (pending : Option Priority) : LinePort :=
      { tx := tx, pending := pending, frame := none, aborts := 0, holdOff := none, abortedCrc := 0, restTimer := none,
        silence := .none, duplicateTimer := none, beaconTimer := none, dueTaken := false, noise := 0, noiseClock := 0,
        isolationTimer := none }
    let heat (m : HeatMode) : Heater :=
      { mode := m, wet := false, memory := none, ambient := none, ambientFails := 0, zones := ⟨zone, zone, zone, zone⟩,
        target := .none, demand := 0, scale := 0, allowance := 0, load := 0 }
    let none5 : Causes :=
      { windLocal := false, windPeers := false, blind := false, isolation := false, console := false }
    ∃ t, exec .startInstant s = .next t ∧ t.inReset = false
      ∧ t.env.now = 0 ∧ t.env.peers = [] ∧ t.env.setup = startSetup ∧ t.env.inputs = startInputs
      ∧ t.env.wind =
        { live := 0, standby := 0, ring := [], blockSum := 0, blockBins := 0, blocks := [], gust := 0,
          gustValid := false, mean := 0, meanValid := false, vote := .none, stall := 0, grace := some 0, usable := true,
          outLocal := false, outPeers := false, outBlind := false, effective := none, proof := none, binClock := none }
      ∧ t.slot = { tag := 0, console := 0, code := .none }
      ∧ t.core.axes = { az := axis, el := axis, derating := false, onSource := false, onSourceTimer := 0 }
      ∧ t.core.fee =
        { claim := claim, loadAz := 0, loadEl := 0, accelAz := false, accelEl := false, effective := 0, drive := 0,
          raw := 0, headroom := 0, ahead := 0, pool := 0, ownDemand := 0, allowance := 0, fill := some 0 }
      ∧ (∀ c, condAt t.core.cond c = .clear) ∧ t.core.cond.masks = 0 ∧ t.core.cond.notices = 0
      ∧ t.core.cond.summary = 0 ∧ t.core.cond.settled = false ∧ t.core.cond.proof = none
      ∧ t.core.stow.state = .clear ∧ t.core.stow.park = .run ∧ t.core.stow.pin = .off
      ∧ t.core.stow.holdTimer = none ∧ t.core.stow.pinTimer = none ∧ t.core.stow.settleTimer = none
      ∧ t.core.stow.pendingRelease = false
      ∧ (storeGood s.store = true → t.env.list = rebuildList s.store ∧ t.core.heat = heat s.store.heat
          ∧ t.core.line = line .idle none ∧ t.core.stow.causes = { none5 with console := s.store.console })
      ∧ (storeGood s.store = false → t.env.list = [newLock .point .system] ∧ t.core.heat = heat .auto
          ∧ t.core.line = line .gap (some .urgent) ∧ t.core.stow.causes = none5 ∧ t.store.valid = true)

/-- The loader at a section: a good one is installed and a failed one gives its condition and the record (ALL, SYSTEM);
either way the loader goes on to the next. With every section good, a system record held becomes the cold record. -/
def Obligations.SectionIsInstalledOrFails : Prop :=
  ∀ (l : List Byte) (s : State), Live s →
    (s.env.setup.loading = some .a → ∃ t, exec (.sectionLoaded l) s = .next t ∧ t.env.setup.loading = some .b
      ∧ (∀ a, parseA l = some a → t.env.setup.secA = some a ∧ t.env.setup.statusA = .installed)
      ∧ (parseA l = none → t.env.setup.statusA = .failed ∧ t.core.line.tx = .silent
          ∧ condAt t.core.cond (.sectionFailed .a) = .active ∧ systemAll t.env.list = true))
    ∧ (s.env.setup.loading = some .b → ∃ t, exec (.sectionLoaded l) s = .next t ∧ t.env.setup.loading = some .c
      ∧ (∀ b, parseB l = some b → t.env.setup.secB = b ∧ t.env.setup.statusB = .installed)
      ∧ (parseB l = none → t.env.setup.statusB = .failed ∧ t.env.setup.secB = s.env.setup.secB
          ∧ condAt t.core.cond (.sectionFailed .b) = .active ∧ systemAll t.env.list = true))
    ∧ (s.env.setup.loading = some .c → ∃ t, exec (.sectionLoaded l) s = .next t ∧ t.env.setup.loading = some .d
      ∧ t.env.wind.binClock = some 0
      ∧ (∀ c, parseC l = some c → t.env.setup.secC = c ∧ t.env.setup.statusC = .installed)
      ∧ (parseC l = none → t.env.setup.statusC = .failed ∧ t.env.setup.secC = s.env.setup.secC
          ∧ condAt t.core.cond (.sectionFailed .c) = .active ∧ systemAll t.env.list = true))
    ∧ (s.env.setup.loading = some .d → ∃ t, exec (.sectionLoaded l) s = .next t ∧ t.env.setup.loading = none
      ∧ (∀ d, parseD l = some d → t.env.setup.secD = d ∧ t.env.setup.statusD = .installed
          ∧ t.core.cond.masks = d.masks ∧ t.core.cond.alarmMask = d.alarm
          ∧ (s.env.setup.statusA = .installed → s.env.setup.statusB = .installed → s.env.setup.statusC = .installed →
              (systemRecord s.env.list).isSome = true →
              ∃ r, systemRecord t.env.list = some r ∧ r.kind = .point ∧ r.uncertain = false)
          ∧ (¬(s.env.setup.statusA = .installed ∧ s.env.setup.statusB = .installed ∧ s.env.setup.statusC = .installed)
              ∨ systemRecord s.env.list = none → t.env.list = s.env.list))
      ∧ (parseD l = none → t.env.setup.statusD = .failed ∧ t.core.cond.masks = 0
          ∧ condAt t.core.cond (.sectionFailed .d) = .active ∧ systemAll t.env.list = true))

/-- Configuration completes once the encoders are read and each pin input is taken: a beacon is due, the isolation timer
runs, orders are taken from now on, and the stow state is the derived one; a derived CLEAR with a stow cause present goes on
to BLOCKED, FAILED, or its way to stow. -/
def Obligations.ConfigurationCompletes : Prop :=
  ∀ s : State, Live s → mayComplete s.env = true →
    ∃ t, exec .configurationComplete s = .next t ∧ t.env.setup.configured = true
      ∧ t.core.line.pending.isSome = true
      ∧ (receiving s.env = true → t.core.line.isolationTimer = some 0)
      ∧ t.core.stow.causes = s.core.stow.causes
      ∧ (s.core.stow.causes = noCauses ∨ ¬derivedStow s.env s.core = .clear →
          t.core.stow.state = derivedStow s.env s.core)
      ∧ (¬s.core.stow.causes = noCauses → derivedStow s.env s.core = .clear →
          (blocking s.env.list = true → t.core.stow.state = .blocked)
            ∧ (blocking s.env.list = false → someFault s.core = true → t.core.stow.state = .failed)
            ∧ (blocking s.env.list = false → someFault s.core = false → s.env.inputs.ampFault = false →
                t.core.stow.state = .demanded ∨ t.core.stow.state = .moving))
      ∧ (derivedStow s.env s.core = .failed → condAt t.core.cond .pinFeedback = .active)
      ∧ t.outputs.alarm = alarmLevel t.core.cond
end

