-- ==== Sys2Proof/Laws/State.lean ====
section
/-! SUPPORT. What the small updates of the blocks leave alone and what they set, field by field, so that no later proof unfolds a record update. -/

namespace Sys2Proof.Machine

/-! ## putAxis -/

@[simp] theorem putAxis_stow (k : Core) (i : Axis) (r : AxisRec) : (putAxis k i r).stow = k.stow := rfl
@[simp] theorem putAxis_heat (k : Core) (i : Axis) (r : AxisRec) : (putAxis k i r).heat = k.heat := rfl
@[simp] theorem putAxis_line (k : Core) (i : Axis) (r : AxisRec) : (putAxis k i r).line = k.line := rfl
@[simp] theorem putAxis_fee (k : Core) (i : Axis) (r : AxisRec) : (putAxis k i r).fee = k.fee := rfl
@[simp] theorem putAxis_cond (k : Core) (i : Axis) (r : AxisRec) : (putAxis k i r).cond = k.cond := rfl
@[simp] theorem putAxis_az_az (k : Core) (r : AxisRec) : (putAxis k .az r).axes.az = r := rfl
@[simp] theorem putAxis_az_el (k : Core) (r : AxisRec) : (putAxis k .az r).axes.el = k.axes.el := rfl
@[simp] theorem putAxis_el_az (k : Core) (r : AxisRec) : (putAxis k .el r).axes.az = k.axes.az := rfl
@[simp] theorem putAxis_el_el (k : Core) (r : AxisRec) : (putAxis k .el r).axes.el = r := rfl
@[simp] theorem getAxis_az (k : Core) : getAxis k .az = k.axes.az := rfl
@[simp] theorem getAxis_el (k : Core) : getAxis k .el = k.axes.el := rfl
@[simp] theorem getAxis_putAxis (k : Core) (i : Axis) (r : AxisRec) : getAxis (putAxis k i r) i = r := by cases i <;> rfl
@[simp] theorem getAxis_putAxis_other (k : Core) (i : Axis) (r : AxisRec) :
    getAxis (putAxis k i r) (otherAxis i) = getAxis k (otherAxis i) := by cases i <;> rfl
@[simp] theorem putAxis_derating (k : Core) (i : Axis) (r : AxisRec) :
    (putAxis k i r).axes.derating = k.axes.derating := by cases i <;> rfl
@[simp] theorem putAxis_onSource (k : Core) (i : Axis) (r : AxisRec) :
    (putAxis k i r).axes.onSource = k.axes.onSource := by cases i <;> rfl

/-! ## request -/

@[simp] theorem request_axes (p : Priority) (k : Core) : (request p k).axes = k.axes := rfl
@[simp] theorem request_stow (p : Priority) (k : Core) : (request p k).stow = k.stow := rfl
@[simp] theorem request_heat (p : Priority) (k : Core) : (request p k).heat = k.heat := rfl
@[simp] theorem request_fee (p : Priority) (k : Core) : (request p k).fee = k.fee := rfl
@[simp] theorem request_cond (p : Priority) (k : Core) : (request p k).cond = k.cond := rfl
@[simp] theorem request_line (p : Priority) (k : Core) : (request p k).line = requestOn p k.line := rfl
@[simp] theorem requestOn_pending (p : Priority) (l : LinePort) : (requestOn p l).pending.isSome = true := rfl
@[simp] theorem requestOn_frame (p : Priority) (l : LinePort) : (requestOn p l).frame = l.frame := rfl
@[simp] theorem requestOn_aborts (p : Priority) (l : LinePort) : (requestOn p l).aborts = l.aborts := rfl
@[simp] theorem requestOn_noise (p : Priority) (l : LinePort) : (requestOn p l).noise = l.noise := rfl

/-- An urgent request leaves an urgent beacon pending (R107). -/
@[simp] theorem requestOn_urgent (l : LinePort) : (requestOn .urgent l).pending = some .urgent := by
  cases h : l.pending <;> simp [requestOn, h, lowerPriority]

/-! ## putZone, withInputs, withSetup, drive -/

@[simp] theorem putZone_axes (k : Core) (i : Fin 4) (z : Zone) : (putZone k i z).axes = k.axes := rfl
@[simp] theorem putZone_stow (k : Core) (i : Fin 4) (z : Zone) : (putZone k i z).stow = k.stow := rfl
@[simp] theorem putZone_line (k : Core) (i : Fin 4) (z : Zone) : (putZone k i z).line = k.line := rfl
@[simp] theorem putZone_fee (k : Core) (i : Fin 4) (z : Zone) : (putZone k i z).fee = k.fee := rfl
@[simp] theorem putZone_cond (k : Core) (i : Fin 4) (z : Zone) : (putZone k i z).cond = k.cond := rfl

theorem fourGet_fourSet {α : Type} (f : Four α) (i : Fin 4) (x : α) : fourGet (fourSet f i x) i = x := by
  fin_cases i <;> rfl

theorem fourGet_fourSet_ne {α : Type} (f : Four α) (i j : Fin 4) (x : α) (h : i ≠ j) :
    fourGet (fourSet f i x) j = fourGet f j := by
  fin_cases i <;> fin_cases j <;> first | rfl | exact absurd rfl h

theorem fourGet_fourOf {β : Type} (g : Fin 4 → β) (i : Fin 4) : fourGet (fourOf g) i = g i := by
  fin_cases i <;> rfl

@[simp] theorem withInputs_core (n : Inputs) (s : State) : (withInputs n s).core = s.core := rfl
@[simp] theorem withInputs_store (n : Inputs) (s : State) : (withInputs n s).store = s.store := rfl
@[simp] theorem withInputs_list (n : Inputs) (s : State) : (withInputs n s).env.list = s.env.list := rfl
@[simp] theorem withInputs_peers (n : Inputs) (s : State) : (withInputs n s).env.peers = s.env.peers := rfl
@[simp] theorem withInputs_setup (n : Inputs) (s : State) : (withInputs n s).env.setup = s.env.setup := rfl
@[simp] theorem withInputs_inReset (n : Inputs) (s : State) : (withInputs n s).inReset = s.inReset := rfl

@[simp] theorem withSetup_core (p : Setup) (s : State) : (withSetup p s).core = s.core := rfl
@[simp] theorem withSetup_store (p : Setup) (s : State) : (withSetup p s).store = s.store := rfl
@[simp] theorem withSetup_list (p : Setup) (s : State) : (withSetup p s).env.list = s.env.list := rfl
@[simp] theorem withSetup_peers (p : Setup) (s : State) : (withSetup p s).env.peers = s.env.peers := rfl
@[simp] theorem withSetup_setup (p : Setup) (s : State) : (withSetup p s).env.setup = p := rfl

@[simp] theorem drive_env (s : State) : (drive s).env = s.env := rfl
@[simp] theorem drive_core (s : State) : (drive s).core = s.core := rfl
@[simp] theorem drive_store (s : State) : (drive s).store = s.store := rfl
@[simp] theorem drive_slot (s : State) : (drive s).slot = s.slot := rfl
@[simp] theorem drive_inReset (s : State) : (drive s).inReset = s.inReset := rfl
@[simp] theorem drive_pending (s : State) : (drive s).pending = s.pending := rfl
@[simp] theorem drive_outputs (s : State) : (drive s).outputs = outputsOf s.env s.core := rfl

/-! ## settle -/

@[simp] theorem settle_env (old : Nat) (s : State) : (settle old s).env = s.env := rfl
@[simp] theorem settle_slot (old : Nat) (s : State) : (settle old s).slot = s.slot := rfl
@[simp] theorem settle_inReset (old : Nat) (s : State) : (settle old s).inReset = s.inReset := rfl
@[simp] theorem settle_pending (old : Nat) (s : State) : (settle old s).pending = s.pending := rfl

theorem followInterval_fields (old : Nat) (e : Env) (k : Core) :
    (followInterval old e k).axes = k.axes ∧ (followInterval old e k).stow = k.stow
      ∧ (followInterval old e k).heat = k.heat ∧ (followInterval old e k).fee = k.fee
      ∧ (followInterval old e k).cond = k.cond := by
  unfold followInterval; simp only []; split <;> exact ⟨rfl, rfl, rfl, rfl, rfl⟩

@[simp] theorem followInterval_axes (old : Nat) (e : Env) (k : Core) : (followInterval old e k).axes = k.axes :=
  (followInterval_fields old e k).1
@[simp] theorem followInterval_stow (old : Nat) (e : Env) (k : Core) : (followInterval old e k).stow = k.stow :=
  (followInterval_fields old e k).2.1
@[simp] theorem followInterval_heat (old : Nat) (e : Env) (k : Core) : (followInterval old e k).heat = k.heat :=
  (followInterval_fields old e k).2.2.1
@[simp] theorem followInterval_fee (old : Nat) (e : Env) (k : Core) : (followInterval old e k).fee = k.fee :=
  (followInterval_fields old e k).2.2.2.1
@[simp] theorem followInterval_cond (old : Nat) (e : Env) (k : Core) : (followInterval old e k).cond = k.cond :=
  (followInterval_fields old e k).2.2.2.2

@[simp] theorem settle_axes (old : Nat) (s : State) : (settle old s).core.axes = s.core.axes :=
  followInterval_axes old s.env s.core
@[simp] theorem settle_stow (old : Nat) (s : State) : (settle old s).core.stow = s.core.stow :=
  followInterval_stow old s.env s.core
@[simp] theorem settle_heat (old : Nat) (s : State) : (settle old s).core.heat = s.core.heat :=
  followInterval_heat old s.env s.core
@[simp] theorem settle_fee (old : Nat) (s : State) : (settle old s).core.fee = s.core.fee :=
  followInterval_fee old s.env s.core
@[simp] theorem settle_cond (old : Nat) (s : State) : (settle old s).core.cond = s.core.cond :=
  followInterval_cond old s.env s.core
@[simp] theorem settle_outputs (old : Nat) (s : State) :
    (settle old s).outputs = outputsOf s.env (settle old s).core := rfl

/-- The retained store's own items survive the settling: records, marks and writes are untouched, the heat mode and the
CONSOLE presence are the blocks' (R78). -/
theorem syncStore_fields (k : Core) (st : Store) :
    (syncStore k st).valid = st.valid ∧ (syncStore k st).records = st.records ∧ (syncStore k st).marks = st.marks
      ∧ (syncStore k st).queue = st.queue ∧ (syncStore k st).writing = st.writing
      ∧ (syncStore k st).heat = k.heat.mode ∧ (syncStore k st).console = k.stow.causes.console := by
  unfold syncStore
  split <;> (simp only []; split <;> simp_all)

/-! ## The outcome of a command -/

/-- A command answers the next state that its work gives. -/
theorem run_eq (f : State → State) (s : State) : run f s = .next (work f s) := rfl

/-- Out of reset, the work of a command is its own function, settled. -/
theorem work_live (f : State → State) (s : State) (h : s.inReset = false) : work f s = settle (intervalOf s) (f s) := by
  simp [work, h]

/-- In reset a command changes nothing (R183). -/
theorem work_reset (f : State → State) (s : State) (h : s.inReset = true) : work f s = s := by simp [work, h]

/-! ## Frames, stores and cycles: what each can do -/

/-- A frame that fails a check of R112 is discarded. -/
theorem takeFrame_noise (f : RawFrame) (s : State) (h : frameIntact f = false) :
    takeFrame f s = { s with core := discard s.env s.core } := by simp [takeFrame, h]

/-- An intact beacon frame is taken as a beacon of its origin, whatever its priority (R114). -/
theorem takeFrame_beacon (f : RawFrame) (s : State) (h : frameIntact f = true) (hk : kindOfFrame f = beaconKind) :
    takeFrame f s = takeBeacon (originOfFrame f) f.payload s := by simp [takeFrame, h, hk]

/-- An intact order frame is taken as an order of its origin, whatever its priority (R114). -/
theorem takeFrame_order (f : RawFrame) (s : State) (h : frameIntact f = true) (hk : kindOfFrame f = orderKind) :
    takeFrame f s = takePayload (originOfFrame f) f.payload s := by
  simp [takeFrame, h, hk, show orderKind ≠ beaconKind by decide]

/-- An intact frame of another kind is ignored (R114). -/
theorem takeFrame_other (f : RawFrame) (s : State) (h : frameIntact f = true) (hb : ¬kindOfFrame f = beaconKind)
    (ho : ¬kindOfFrame f = orderKind) : takeFrame f s = s := by simp [takeFrame, h, hb, ho]

/-- A kind that 12.3 does not define makes an order malformed (R164). -/
theorem takeKind_undefined (kind : Byte) (o : Order) (h : orderKindDefined kind = false) :
    takeKind kind o = takeUndefined o := by
  unfold takeKind
  split <;> first | rfl | (rename_i hk; simp [orderKindDefined, hk] at h)

/-- Within the hold-up time a supply failure keeps the store (R183). -/
theorem storeLost_within (ms : Nat) (lost : Bool) (h : ms ≤ holdUpMs) : storeLost ms lost = false := by
  simp [storeLost]; omega

/-- A failure beyond the hold-up time and what is close to it loses the store (R183). -/
theorem storeLost_beyond (ms : Nat) (lost : Bool) (h : holdUpMs + Config.holdUpSpread < ms) : storeLost ms lost = true := by
  simp only [storeLost, h, decide_true, Bool.or_true, Bool.and_true, decide_eq_true_eq]; omega

/-- A failure close beyond the hold-up time loses the store exactly where it says so (R183). -/
theorem storeLost_near (ms : Nat) (lost : Bool) (h : holdUpMs < ms) (g : ms ≤ holdUpMs + Config.holdUpSpread) :
    storeLost ms lost = lost := by simp [storeLost, h, Nat.not_lt.mpr g]

/-- The first sample of an input counts what its caller gives it (R72, R185). -/
theorem filterSample_first (limit first ms : Nat) (level : Bool) (f : Filter) (h : f.sampled = false) :
    filterSample limit first ms level f = { f with sampled := true, level := level, held := min limit first } := by
  simp [filterSample, h]

/-- A sample of another level begins it afresh (R48, R72). -/
theorem filterSample_new (limit first ms : Nat) (level : Bool) (f : Filter) (h : f.sampled = true) (g : ¬f.level = level) :
    filterSample limit first ms level f = { f with level := level, held := 0 } := by
  simp [filterSample, h, g]

/-- A sample of the level that the input has shown adds its ms, up to the filter time (R48, R72). -/
theorem filterSample_same (limit first ms : Nat) (f : Filter) (h : f.sampled = true) :
    filterSample limit first ms f.level f = { f with held := min limit (f.held + ms) } := by simp [filterSample, h]

@[simp] theorem cutWrites_records (a : ItemCuts) (c : Bool) (st : Store) : (cutWrites a c st).records = st.records := rfl
@[simp] theorem cutWrites_marks (a : ItemCuts) (c : Bool) (st : Store) : (cutWrites a c st).marks = st.marks := rfl
@[simp] theorem cutWrites_queue (a : ItemCuts) (c : Bool) (st : Store) : (cutWrites a c st).queue = [] := rfl
@[simp] theorem cutWrites_writing (a : ItemCuts) (c : Bool) (st : Store) : (cutWrites a c st).writing = none := rfl
@[simp] theorem cutWrites_valid (a : ItemCuts) (c : Bool) (st : Store) :
    (cutWrites a c st).valid = (st.valid && !(c && st.emptying)) := rfl

end Sys2Proof.Machine
end

