-- ==== Sys2Proof/Laws/Protection.lean ====
section
/-! SUPPORT. Every operation of the blocks keeps two things: the class summary is what the conditions make it (R172), and while a blocking record is held (`b` true) an axis that is not moving stays so (R26). -/

namespace Sys2Proof.Machine

/-- What every operation keeps: the summary right, and with `b` both axes at rest. -/
structure Kept (b : Bool) (k : Core) : Prop where
  summary : k.cond.summary = summaryOf k.cond.states k.cond.masks
  az : b = true → isMoving k.axes.az = false
  el : b = true → isMoving k.axes.el = false

variable {b : Bool} {k : Core} {e : Env}

/-! ## Conditions, requests, waking -/

theorem Kept.request (p : Priority) (h : Kept b k) : Kept b (request p k) := ⟨h.1, h.2, h.3⟩

theorem isMoving_keepReading (r : AxisRec) : isMoving (keepReading r) = isMoving r := rfl

theorem Kept.wakeEvent (h : Kept b k) : Kept b (wakeEvent k) := by
  unfold Machine.wakeEvent
  split
  · exact ⟨h.1, h.2, h.3⟩
  · exact h

theorem Kept.setCond (c : Cond) (st : CondState) (h : Kept b k) : Kept b { k with cond := setCond c st k.cond } :=
  ⟨rfl, h.2, h.3⟩

theorem Kept.setNotice (c : Cls) (h : Kept b k) : Kept b (setNotice c k) := ⟨h.1, h.2, h.3⟩

theorem Kept.raiseCond (c : Cond) (h : Kept b k) : Kept b (raiseCond c k) := by
  unfold Machine.raiseCond
  split
  · exact h
  · refine Kept.wakeEvent ?_
    split
    · exact Kept.setNotice _ (Kept.setCond c .active h)
    · exact Kept.setCond c .active h

theorem Kept.endCond (c : Cond) (h : Kept b k) : Kept b (endCond c k) := by
  unfold Machine.endCond
  split
  · exact Kept.setCond c .latched h
  · exact h

theorem Kept.syncCond (c : Cond) (p : Bool) (h : Kept b k) : Kept b (syncCond c p k) := by
  unfold Machine.syncCond
  split
  · exact h.raiseCond c
  · exact h.endCond c

theorem foldl_keeps {α β : Type} (P : β → Prop) (f : β → α → β) (l : List α) (hf : ∀ x a, P x → P (f x a)) :
    ∀ x, P x → P (l.foldl f x) := by
  induction l with
  | nil => intro x hx; exact hx
  | cons a l ih => intro x hx; exact ih _ (hf x a hx)

theorem Kept.clearLatched (cs : BitVec 6) (h : Kept b k) : Kept b { k with cond := clearLatched cs k.cond } := by
  refine ⟨?_, h.2, h.3⟩
  unfold Machine.clearLatched
  refine foldl_keeps (fun u : CondUnit => u.summary = summaryOf u.states u.masks) _ _ ?_ _ h.1
  intro u c hu
  split
  · rfl
  · exact hu

theorem Kept.settleMasks (m : BitVec 36) (a : BitVec 6) (h : Kept b k) : Kept b (settleMasks m a k) := by
  unfold Machine.settleMasks
  refine foldl_keeps (Kept b) _ _ ?_ _ ⟨rfl, h.2, h.3⟩
  intro x c hx
  split
  · exact hx.setNotice c
  · exact hx

/-! ## Stow state -/

theorem Kept.syncStowFailed (h : Kept b k) : Kept b (syncStowFailed k) := h.syncCond _ _

theorem Kept.setStow (n : StowState) (h : Kept b k) : Kept b (setStow n k) := by
  unfold Machine.setStow
  split
  · exact h
  · refine Kept.syncStowFailed ?_
    have h1 : Kept b (Machine.request .urgent
        { k with
          stow := enterStow n k.stow
          axes := { k.axes with
            az := (if n = .clear then idleAtClear else idleStopped) k.axes.az
            el := (if n = .clear then idleAtClear else idleStopped) k.axes.el } }) := by
      refine Kept.request _ ⟨h.1, fun hb => ?_, fun hb => ?_⟩
      · have := h.2 hb; split <;> exact this
      · have := h.3 hb; split <;> exact this
    split
    · exact h1.wakeEvent
    · exact h1

theorem Kept.drivePinIn (h : Kept b k) : Kept b (drivePinIn k) := ⟨h.1, h.2, h.3⟩

theorem Kept.settlePinFeedback (h : Kept b k) : Kept b (settlePinFeedback e k) := by
  unfold Machine.settlePinFeedback
  split
  · exact h.endCond _
  · exact h

theorem Kept.pinFault (h : Kept b k) : Kept b (pinFault e k) := ((h.raiseCond _).setStow _).settlePinFeedback

/-! ## Heater unit and feeder account -/

theorem Kept.applyAllowance (h : Kept b k) : Kept b (applyAllowance e k) := ⟨h.1, h.2, h.3⟩

theorem Kept.admitClaim (f : Bool) (h : Kept b k) : Kept b (admitClaim f k) := by
  unfold Machine.admitClaim
  have h1 : Kept b (Machine.request .urgent
      { k with fee := { k.fee with claim := { k.fee.claim with state := .active, forced := f } } }) :=
    ⟨h.1, h.2, h.3⟩
  have h2 : Kept b (if f = true then Machine.raiseCond .stowForced (Machine.request .urgent
      { k with fee := { k.fee with claim := { k.fee.claim with state := .active, forced := f } } })
      else Machine.request .urgent
      { k with fee := { k.fee with claim := { k.fee.claim with state := .active, forced := f } } }) := by
    split
    · exact h1.raiseCond _
    · exact h1
  simp only []
  split
  · exact h2.setStow _
  · exact h2

theorem Kept.degradeClaim (h : Kept b k) : Kept b (degradeClaim e k) := ⟨h.1, h.2, h.3⟩

theorem Kept.overcommitTest (h : Kept b k) : Kept b (overcommitTest e k).1 := by
  unfold Machine.overcommitTest
  split
  · simp only []
    split
    · exact (h.raiseCond _).degradeClaim
    · exact h.raiseCond _
  · exact h.endCond _

theorem Kept.withFigures (h : Kept b k) : Kept b (withFigures e k) := ⟨h.1, h.2, h.3⟩

theorem Kept.handAllowance (p : Nat) (h : Kept b k) : Kept b (handAllowance e p k) := Kept.applyAllowance ⟨h.1, h.2, h.3⟩

theorem Kept.computePass (h : Kept b k) : Kept b (computePass e k).1 := by
  have h2 := (Kept.withFigures (e := e) h).overcommitTest (e := e)
  unfold Machine.computePass
  simp only []
  split
  · exact (h2.handAllowance _).admitClaim _
  · exact h2.handAllowance _

theorem Kept.computeTimes (n : Nat) : ∀ {k : Core}, Kept b k → Kept b (computeTimes e n k) := by
  induction n with
  | zero => intro k h; exact h
  | succ n ih =>
    intro k h
    unfold Machine.computeTimes
    simp only []
    split
    · exact ih h.computePass
    · exact h.computePass

theorem Kept.compute (h : Kept b k) : Kept b (compute e k) := by
  unfold Machine.compute
  split
  · exact h.computeTimes 3
  · exact Kept.applyAllowance ⟨h.1, h.2, h.3⟩

theorem Kept.testAdmission (h : Kept b k) : Kept b (testAdmission e k) := by
  unfold Machine.testAdmission
  split
  · exact (h.admitClaim _).compute
  · exact h

theorem Kept.dropClaim (h : Kept b k) : Kept b (dropClaim e k) :=
  Kept.compute (Kept.endCond _ (Kept.request _ ⟨h.1, h.2, h.3⟩))

theorem Kept.withdrawWaiting (h : Kept b k) : Kept b (withdrawWaiting e k) := by
  unfold Machine.withdrawWaiting
  split
  · exact h.dropClaim
  · exact h

theorem Kept.withdrawClaim (h : Kept b k) : Kept b (withdrawClaim e k) := by
  unfold Machine.withdrawClaim
  split
  · exact h
  · exact h.dropClaim

theorem Kept.requestClaim (c : ClaimKind) (x y : Bool) (h : Kept b k) : Kept b (requestClaim e c x y k) := by
  unfold Machine.requestClaim
  split
  · exact h
  · split
    · split
      · exact Kept.compute (Kept.request _ ⟨h.1, h.2, h.3⟩)
      · exact Kept.compute ⟨h.1, h.2, h.3⟩
      · unfold Machine.convertClaim
        split
        · exact h
        · exact Kept.compute ⟨h.1, h.2, h.3⟩
    · exact h.withdrawWaiting

theorem Kept.recomputeClaim (h : Kept b k) : Kept b (recomputeClaim e k) := by
  unfold Machine.recomputeClaim
  split
  · simp only []
    split
    · exact Kept.compute ⟨h.1, h.2, h.3⟩
    · split
      · exact h.dropClaim.setStow _
      · exact h.dropClaim
  · exact h

theorem Kept.evaluateHeat (h : Kept b k) : Kept b (evaluateHeat e k) := by
  unfold Machine.evaluateHeat
  split
  · simp only []
    split
    · exact Kept.applyAllowance ⟨h.1, h.2, h.3⟩
    · exact Kept.compute ⟨h.1, h.2, h.3⟩
  · exact h

/-! ## Axes -/

/-- An axis record put in the place of another: at rest where it has to be. -/
theorem Kept.putAxis (i : Axis) (r : AxisRec) (h : Kept b k) (hr : b = true → isMoving r = false) :
    Kept b (putAxis k i r) := by
  cases i
  · exact ⟨h.1, hr, h.3⟩
  · exact ⟨h.1, h.2, hr⟩

theorem Kept.get (i : Axis) (h : Kept b k) : b = true → isMoving (getAxis k i) = false := by
  cases i
  · exact h.2
  · exact h.3

theorem isMoving_of_state {r r' : AxisRec} (h : r'.state = r.state) : isMoving r' = isMoving r := by
  unfold isMoving; rw [h]

/-- A record that keeps its axis's state keeps it at rest. -/
theorem Kept.putSame (i : Axis) (r : AxisRec) (h : Kept b k) (hr : r.state = (getAxis k i).state) :
    Kept b (Machine.putAxis k i r) :=
  h.putAxis i r fun hb => (isMoving_of_state hr).trans (h.get i hb)

theorem Kept.endRange (i : Axis) (h : Kept b k) : Kept b (endRange i k) := by
  cases i
  · exact h.endCond _
  · exact h

theorem Kept.clearPending (i : Axis) (h : Kept b k) : Kept b (clearPending i k) := by
  unfold Machine.clearPending
  simp only []
  split
  · exact h.putSame i _ rfl
  · exact h

theorem Kept.takeHold (i : Axis) (h : Kept b k) : Kept b (takeHold i k) := by
  unfold Machine.takeHold
  simp only []
  split
  · refine Kept.endRange i (Kept.putAxis i _ h fun hb => ?_)
    exact (isMoving_of_state rfl).trans (h.get i hb)
  · exact h

theorem Kept.enterStopping (i : Axis) (h : Kept b k) : Kept b (enterStopping i k) := by
  unfold Machine.enterStopping
  simp only []
  split
  · exact (h.putAxis i _ fun _ => rfl).endRange i
  · exact h

theorem Kept.stowAxisFault (i : Axis) (h : Kept b k) : Kept b (stowAxisFault i k) := by
  unfold Machine.stowAxisFault
  split
  · split
    · exact h.takeHold _
    · exact h
  · exact (h.takeHold _).setStow _
  · exact (h.takeHold _).setStow _
  · exact h.setStow _
  · exact h

theorem Kept.faultAxis (i : Axis) (h : Kept b k) : Kept b (faultAxis e i k) := by
  unfold Machine.faultAxis
  split
  · exact h
  · exact (((((h.putAxis i _ fun _ => rfl).endRange i).stowAxisFault i).clearPending _).withdrawWaiting).syncStowFailed

/-- A blocking record prohibits every release (R2). -/
theorem releaseProhibited_of_blocking (h : blocking e.list = true) (k : Core) : releaseProhibited e k = true := by
  simp [releaseProhibited, h]

theorem Kept.enterUnbraking (i : Axis) (t : Target) (h : Kept b k) (hb : b = false) :
    Kept b (enterUnbraking e i t k) := by
  subst hb
  unfold Machine.enterUnbraking
  have h1 : Kept false (Machine.putAxis k i
      { getAxis k i with
        state := .unbraking, target := t, releasePending := false, brakeTimer := some 0, brakeSeen := false }) :=
    h.putAxis i _ nofun
  simp only []
  split
  · exact h1.faultAxis i
  · exact h1

/-- With `b` the blocking of the list, an operation that is not prohibited runs without a blocking record. -/
theorem not_blocking_of_free {k : Core} (hb : blocking e.list = b) (h : releaseProhibited e k = false) : b = false := by
  cases b
  · rfl
  · rw [releaseProhibited_of_blocking hb k] at h; exact absurd h (by decide)

theorem Kept.requestRelease (hb : blocking e.list = b) (i : Axis) (t : Target) (h : Kept b k) :
    Kept b (requestRelease e i t k) := by
  unfold Machine.requestRelease
  split
  · exact h.putSame i _ rfl
  · rename_i hp
    exact h.enterUnbraking i t (not_blocking_of_free hb (by simpa using hp))

theorem getAxis_endRange (i : Axis) (k : Core) (j : Axis) : (getAxis (endRange i k) j).state = (getAxis k j).state := by
  cases i <;> simp only [endRange, endCond]
  split <;> cases j <;> rfl

theorem Kept.giveTarget (hb : blocking e.list = b) (i : Axis) (t : Target) (h : Kept b k) :
    Kept b (giveTarget e i t k) := by
  have h0 := h.endRange i
  have same : ∀ r : AxisRec, r.state = (getAxis k i).state → Kept b (Machine.putAxis (Machine.endRange i k) i r) :=
    fun r hr => h0.putSame i r (hr.trans (getAxis_endRange i k i).symm)
  unfold Machine.giveTarget
  simp only []
  split
  · exact h0.requestRelease hb i t
  · exact same _ rfl
  · exact same _ rfl
  · split
    · exact same _ rfl
    · rename_i hs hp
      refine h0.putAxis i _ fun hbt => ?_
      exfalso
      have := not_blocking_of_free (k := k) hb (by
        revert hp
        cases releaseProhibited e k <;> simp)
      rw [this] at hbt; exact absurd hbt (by decide)
  · exact h0

theorem Kept.tryRelease (hb : blocking e.list = b) (i : Axis) (h : Kept b k) : Kept b (tryRelease e i k) := by
  unfold Machine.tryRelease
  simp only []
  split
  · rename_i hc
    exact h.enterUnbraking i _ (not_blocking_of_free hb hc.2.2)
  · exact h

theorem Kept.tryReleases (hb : blocking e.list = b) (h : Kept b k) : Kept b (tryReleases e k) :=
  (h.tryRelease hb .az).tryRelease hb .el

theorem Kept.returnAxis (i : Axis) (h : Kept b k) : Kept b (returnAxis e i k) := by
  unfold Machine.returnAxis
  simp only []
  split
  · exact (h.putAxis i _ fun _ => rfl).syncStowFailed
  · exact h

theorem Kept.holdForLockout (h : Kept b k) : Kept b (holdForLockout e k) := by
  unfold Machine.holdForLockout
  simp only []
  have g : ∀ (i : Axis) (k : Core), Kept b k → Kept b (if isPointing (getAxis k i) = true then Machine.takeHold i k else k) := by
    intro i k h
    split
    · exact h.takeHold i
    · exact h
  exact (((g .el _ (g .az _ h)).clearPending .az).clearPending .el).withdrawWaiting

/-! ## Stow unit -/

theorem Kept.stowElevation (hb : blocking e.list = b) (h : Kept b k) : Kept b (stowElevation e k) := by
  unfold Machine.stowElevation
  split
  · exact h.clearPending _
  · exact h.giveTarget hb _ _

theorem Kept.stowClaim (h : Kept b k) : Kept b (stowClaim e k) := by
  unfold Machine.stowClaim
  simp only []
  split
  · exact (h.requestClaim _ _ _).setStow _
  · exact h.requestClaim _ _ _

theorem Kept.enterDemanded (hb : blocking e.list = b) (h : Kept b k) : Kept b (enterDemanded e k) := by
  have h1 : Kept b (Machine.stowElevation e (stowAzimuth (Machine.setStow .demanded k))) :=
    Kept.stowElevation hb (Kept.clearPending _ (Kept.takeHold _ (h.setStow _)))
  unfold Machine.enterDemanded
  simp only []
  split
  · exact h1.stowClaim
  · exact h1

theorem Kept.demandStow (hb : blocking e.list = b) (h : Kept b k) : Kept b (demandStow e k) := by
  unfold Machine.demandStow
  split
  · exact h.setStow _
  · split
    · exact h.setStow _
    · exact h.enterDemanded hb

theorem Kept.arrivalTest (h : Kept b k) : Kept b (arrivalTest e k) := by
  unfold Machine.arrivalTest
  split
  · exact (h.setStow _).withdrawWaiting
  · exact h

theorem Kept.enterStowed (h : Kept b k) : Kept b (enterStowed k) :=
  ((h.setStow _).enterStopping _).enterStopping _

theorem Kept.driveInTest (h : Kept b k) : Kept b (driveInTest k) := by
  unfold Machine.driveInTest
  split
  · exact h.drivePinIn
  · exact h

theorem Kept.enterReleasing (hb : blocking e.list = b) (h : Kept b k) : Kept b (enterReleasing e k) :=
  ((((h.setStow _).giveTarget hb _ _)).giveTarget hb _ _).driveInTest

theorem Kept.pinTests (h : Kept b k) : Kept b (pinTests e k) := by
  unfold Machine.pinTests
  split
  · split
    · split
      · exact h.enterStowed
      · exact h.pinFault
    · exact h
  · split
    · exact h.setStow _
    · split
      · exact h
      · exact h.pinFault
  · split
    · split
      · exact h.pinFault
      · exact h.setStow _
    · exact h
  · exact h

theorem Kept.pinExpiry (h : Kept b k) : Kept b (pinExpiry e k) := by
  unfold Machine.pinExpiry
  split
  · exact h.pinFault
  · exact h

theorem Kept.blockStow (h : Kept b k) : Kept b (blockStow k) := by
  unfold Machine.blockStow
  split <;> first | exact h.setStow _ | exact h

theorem Kept.holdElevation (h : Kept b k) : Kept b (holdElevation k) := by
  unfold Machine.holdElevation
  split
  · exact h.takeHold _
  · exact h

theorem Kept.reevaluate (hb : blocking e.list = b) (h : Kept b k) : Kept b (reevaluate e k) := by
  unfold Machine.reevaluate
  split
  · exact h.setStow _
  split
  · exact h.enterStowed
  split
  · exact (h.setStow _).holdElevation
  split
  · exact h.setStow _
  split
  · exact h.setStow _
  · exact h.enterDemanded hb

theorem Kept.unblockStow (hb : blocking e.list = b) (h : Kept b k) : Kept b (unblockStow e k) := by
  unfold Machine.unblockStow
  split
  · exact h.reevaluate hb
  · exact h

theorem Kept.takeCauses (hb : blocking e.list = b) (o : Causes) (h : Kept b k) : Kept b (takeCauses e o k) := by
  unfold Machine.takeCauses
  split
  · split
    · exact h
    · exact h.demandStow hb
  · split
    · exact h.setStow _
    · exact h
  · split
    · exact h.setStow _
    · exact h
  · exact h

theorem Kept.updateCauses (hb : blocking e.list = b) (c : Causes) (h : Kept b k) : Kept b (updateCauses e c k) := by
  unfold Machine.updateCauses
  split
  · exact h
  · have h1 : Kept b { k with stow := withCauses c k.stow } := ⟨h.1, h.2, h.3⟩
    simp only []
    split
    · exact h1.takeCauses hb _
    · exact h1

theorem Kept.abandonStow (h : Kept b k) : Kept b (abandonStow e k) :=
  (((((h.setStow _).takeHold _).takeHold _).clearPending _).clearPending _).withdrawWaiting

theorem Kept.actUnstow (hb : blocking e.list = b) (h : Kept b k) : Kept b (actUnstow e k) := by
  unfold Machine.actUnstow
  split
  · exact h.abandonStow
  · exact h.abandonStow
  · exact h.enterReleasing hb
  · split
    · exact h.enterReleasing hb
    · exact ⟨h.1, h.2, h.3⟩
  · split
    · exact h.setStow _
    · exact h
  · exact h

theorem Kept.dropConsole (h : Kept b k) : Kept b (dropConsole k) := ⟨h.1, h.2, h.3⟩

theorem Kept.resumeAxes (h : Kept b k) : Kept b (resumeAxes k) := ⟨h.1, h.2, h.3⟩

theorem Kept.endSettle (hb : blocking e.list = b) (h : Kept b k) : Kept b (endSettle e k) := by
  unfold Machine.endSettle
  split
  · refine Kept.tryReleases hb ?_
    have h1 : Kept b (Machine.resumeAxes
        { k with stow := { k.stow with park := .run, settleTimer := none, pendingRelease := false } }) :=
      ⟨h.1, h.2, h.3⟩
    simp only []
    split
    · exact h1.enterReleasing hb
    · exact h1
  · exact h

theorem Kept.endHold (h : Kept b k) : Kept b (endHold e k) := by
  unfold Machine.endHold
  split
  · exact ⟨h.1, h.2, h.3⟩
  · exact h

end Sys2Proof.Machine
end

