-- ==== Sys2Proof/Laws/Frames.lean ====
section
/-! SUPPORT. What the conditions, the feeder account and the heater unit leave alone: the axes' motion, the conditions of other blocks, the masks and the proofs. -/

namespace Sys2Proof.Machine

/-- The conditions that the feeder account and the stow state change of themselves. -/
def ownCond (c : Cond) : Bool := c = .overload || c = .stowForced || c = .stowFailed

/-- The conditions that change with the axes' targets and states beside those: AZ_RANGE. -/
def looseCond (m : Bool) (c : Cond) : Bool := ownCond c || (!m && decide (c = .azRange))

/-- What requests leave alone in the line port: every timer and count; the transmitter but for IDLE to GAP. -/
structure LineSame (l l' : LinePort) : Prop where
  aborts : l'.aborts = l.aborts
  noise : l'.noise = l.noise
  isolation : l'.isolationTimer = l.isolationTimer
  rest : l'.restTimer = l.restTimer
  duplicate : l'.duplicateTimer = l.duplicateTimer
  beacon : l'.beaconTimer = l.beaconTimer
  silence : l'.silence = l.silence
  holdOff : l'.holdOff = l.holdOff
  crc : l'.abortedCrc = l.abortedCrc
  frame : l'.frame.isSome = l.frame.isSome
  tx : l'.tx = l.tx ∨ (l.tx = .idle ∧ l'.tx = .gap)
  pending : l.pending.isSome = true → l'.pending.isSome = true
  urgent : l.pending = some .urgent → l'.pending = some .urgent

/-- `k'` differs from `k` in nothing but what the feeder account, the heater unit and changes of stow state touch, and,
with `m` false, the axes' motion. -/
structure Same (m : Bool) (k k' : Core) : Prop where
  az : m = true → motion k'.axes.az = motion k.axes.az
  el : m = true → motion k'.axes.el = motion k.axes.el
  derating : k'.axes.derating = k.axes.derating
  onSource : k'.axes.onSource = k.axes.onSource
  conds : ∀ c, looseCond m c = false → condAt k'.cond c = condAt k.cond c
  masks : k'.cond.masks = k.cond.masks
  alarm : k'.cond.alarmMask = k.cond.alarmMask
  proof : k'.cond.proof = k.cond.proof
  mode : k'.heat.mode = k.heat.mode
  line : LineSame k.line k'.line
  causes : k'.stow.causes = k.stow.causes
  hold : k'.stow.holdTimer = k.stow.holdTimer
  park : k.stow.park = .run → k'.stow.park = .run
  awake : k.stow.park = .waking → k'.stow.park = .waking

theorem LineSame.refl (l : LinePort) : LineSame l l :=
  ⟨rfl, rfl, rfl, rfl, rfl, rfl, rfl, rfl, rfl, rfl, .inl rfl, id, id⟩

theorem LineSame.trans {a b c : LinePort} (h : LineSame a b) (g : LineSame b c) : LineSame a c := by
  refine ⟨g.1.trans h.1, g.2.trans h.2, g.3.trans h.3, g.4.trans h.4, g.5.trans h.5, g.6.trans h.6, g.7.trans h.7,
    g.8.trans h.8, g.9.trans h.9, g.10.trans h.10, ?_, g.12 ∘ h.12, g.13 ∘ h.13⟩
  rcases h.11 with h1 | ⟨h1, h2⟩ <;> rcases g.11 with g1 | ⟨g1, g2⟩
  · exact .inl (g1.trans h1)
  · exact .inr ⟨h1 ▸ g1, g2⟩
  · exact .inr ⟨h1, g1.trans h2⟩
  · rw [h2] at g1; exact absurd g1 (by decide)

theorem LineSame.requestOn (p : Priority) {l l' : LinePort} (h : LineSame l l') : LineSame l (requestOn p l') := by
  refine h.trans ⟨rfl, rfl, rfl, rfl, rfl, rfl, rfl, rfl, rfl, rfl, ?_, fun _ => rfl, fun hu => ?_⟩
  · by_cases hi : l'.tx = .idle <;> simp [Machine.requestOn, hi]
  · cases p <;> simp [Machine.requestOn, hu, lowerPriority]

theorem LineSame.frames (f : Frame → Frame) {l l' : LinePort} (h : LineSame l l') :
    LineSame l { l' with frame := l'.frame.map f } :=
  h.trans ⟨rfl, rfl, rfl, rfl, rfl, rfl, rfl, rfl, rfl, by cases l'.frame <;> rfl, .inl rfl, id, id⟩

variable {m : Bool}

theorem Same.refl (k : Core) : Same m k k :=
  ⟨fun _ => rfl, fun _ => rfl, rfl, rfl, fun _ _ => rfl, rfl, rfl, rfl, rfl, .refl _, rfl, rfl, id, id⟩

theorem Same.trans {a b c : Core} (h : Same m a b) (g : Same m b c) : Same m a c :=
  ⟨fun hm => (g.1 hm).trans (h.1 hm), fun hm => (g.2 hm).trans (h.2 hm), g.3.trans h.3, g.4.trans h.4,
   fun x hx => (g.5 x hx).trans (h.5 x hx), g.6.trans h.6, g.7.trans h.7, g.8.trans h.8, g.9.trans h.9,
   h.10.trans g.10, g.11.trans h.11, g.12.trans h.12, g.13 ∘ h.13, g.14 ∘ h.14⟩

/-- What leaves the motion alone leaves less alone. -/
theorem Same.weaken {a b : Core} (h : Same true a b) : Same m a b := by
  refine ⟨fun _ => h.1 rfl, fun _ => h.2 rfl, h.3, h.4, fun c hc => h.5 c ?_, h.6, h.7, h.8, h.9, h.10, h.11, h.12,
    h.13, h.14⟩
  simp only [looseCond, Bool.or_eq_false_iff] at hc ⊢
  exact ⟨hc.1, rfl⟩

/-! ## One condition's change leaves the others -/

theorem allConds_condIndex (c : Cond) : allConds[(condIndex c).val]? = some c := by
  cases c with
  | zoneSensor z => fin_cases z <;> rfl
  | zoneFeedback z => fin_cases z <;> rfl
  | limit i => cases i <;> rfl
  | follow i => cases i <;> rfl
  | encoder i => cases i <;> rfl
  | brake i => cases i <;> rfl
  | sectionFailed x => cases x <;> rfl
  | _ => rfl

/-- Two conditions have two places in the catalogue. -/
theorem condIndex_inj {a b : Cond} (h : condIndex a = condIndex b) : a = b := by
  have ha := allConds_condIndex a
  rw [h, allConds_condIndex b] at ha
  exact (Option.some.inj ha).symm

theorem condAt_setCond (c : Cond) (st : CondState) (u : CondUnit) : condAt (setCond c st u) c = st := by
  simp [condAt, setCond]

theorem condAt_setCond_ne {c d : Cond} (st : CondState) (u : CondUnit) (h : d ≠ c) :
    condAt (setCond c st u) d = condAt u d := by
  have hne : (condIndex c).val ≠ (condIndex d).val := fun he => h (condIndex_inj (Fin.ext he.symm))
  simp only [condAt, setCond, Fin.getElem_fin]
  exact Vector.getElem_set_ne _ _ hne

variable {k0 k : Core} {e : Env}

theorem Same.request (p : Priority) (h : Same m k0 k) : Same m k0 (request p k) :=
  ⟨h.1, h.2, h.3, h.4, h.5, h.6, h.7, h.8, h.9, h.10.requestOn p, h.11, h.12, h.13, h.14⟩

theorem motion_keepReading (r : AxisRec) : motion (keepReading r) = motion r := rfl

theorem Same.wakeEvent (h : Same m k0 k) : Same m k0 (wakeEvent k) := by
  unfold Machine.wakeEvent
  split
  · rename_i hp
    exact ⟨h.1, h.2, h.3, h.4, h.5, h.6, h.7, h.8, h.9, h.10, h.11, h.12,
      fun hr => absurd ((h.13 hr).symm.trans hp) (by decide), fun _ => rfl⟩
  · exact h

theorem Same.setNotice (c : Cls) (h : Same m k0 k) : Same m k0 (setNotice c k) :=
  ⟨h.1, h.2, h.3, h.4, h.5, h.6, h.7, h.8, h.9, (h.10.frames (keepNotice c)).requestOn .urgent, h.11, h.12, h.13, h.14⟩

theorem Same.setCond (c : Cond) (st : CondState) (hc : looseCond m c = true) (h : Same m k0 k) :
    Same m k0 { k with cond := setCond c st k.cond } := by
  refine ⟨h.1, h.2, h.3, h.4, fun d hd => ?_, h.6, h.7, h.8, h.9, h.10, h.11, h.12, h.13, h.14⟩
  rw [← h.5 d hd]
  exact condAt_setCond_ne _ _ fun he => by subst he; rw [hc] at hd; exact absurd hd (by decide)

/-- A raise changes one condition, notices, requests and the park state. -/
theorem Same.raiseCond (c : Cond) (hc : looseCond m c = true) (h : Same m k0 k) : Same m k0 (raiseCond c k) := by
  unfold Machine.raiseCond
  split
  · exact h
  · refine Same.wakeEvent ?_
    split
    · exact Same.setNotice _ (Same.setCond c .active hc h)
    · exact Same.setCond c .active hc h

theorem Same.endCond (c : Cond) (hc : looseCond m c = true) (h : Same m k0 k) : Same m k0 (endCond c k) := by
  unfold Machine.endCond
  split
  · exact Same.setCond c .latched hc h
  · exact h

theorem Same.syncStowFailed (h : Same m k0 k) : Same m k0 (syncStowFailed k) := by
  unfold Machine.syncStowFailed syncCond
  split
  · exact h.raiseCond _ rfl
  · exact h.endCond _ rfl

theorem Same.setStow (n : StowState) (h : Same m k0 k) : Same m k0 (setStow n k) := by
  unfold Machine.setStow
  split
  · exact h
  · refine Same.syncStowFailed ?_
    have h1 : Same m k0 (Machine.request .urgent
        { k with
          stow := enterStow n k.stow
          axes := { k.axes with
            az := (if n = .clear then idleAtClear else idleStopped) k.axes.az
            el := (if n = .clear then idleAtClear else idleStopped) k.axes.el } }) := by
      refine Same.request _
        ⟨fun hm => ?_, fun hm => ?_, h.3, h.4, h.5, h.6, h.7, h.8, h.9, h.10, h.11, h.12, h.13, h.14⟩
      · rw [← h.1 hm]; dsimp only; split <;> rfl
      · rw [← h.2 hm]; dsimp only; split <;> rfl
    split
    · exact h1.wakeEvent
    · exact h1

/-! ## Heater unit and feeder account -/

theorem Same.fee (f : Feeder) (h : Same m k0 k) : Same m k0 { k with fee := f } :=
  ⟨h.1, h.2, h.3, h.4, h.5, h.6, h.7, h.8, h.9, h.10, h.11, h.12, h.13, h.14⟩

theorem Same.applyAllowance (h : Same m k0 k) : Same m k0 (applyAllowance e k) :=
  ⟨h.1, h.2, h.3, h.4, h.5, h.6, h.7, h.8, h.9, h.10, h.11, h.12, h.13, h.14⟩

theorem Same.admitClaim (f : Bool) (h : Same m k0 k) : Same m k0 (admitClaim f k) := by
  unfold Machine.admitClaim
  have h1 := Same.request .urgent (h.fee { k.fee with claim := { k.fee.claim with state := .active, forced := f } })
  simp only []
  split
  · split
    · exact (h1.raiseCond _ rfl).setStow _
    · exact h1.setStow _
  · split
    · exact h1.raiseCond _ rfl
    · exact h1

theorem Same.overcommitTest (h : Same m k0 k) : Same m k0 (overcommitTest e k).1 := by
  unfold Machine.overcommitTest
  split
  · simp only []
    split
    · exact Same.fee _ (Same.fee _ (h.raiseCond _ rfl))
    · exact h.raiseCond _ rfl
  · exact h.endCond _ rfl

theorem Same.computePass (h : Same m k0 k) : Same m k0 (computePass e k).1 := by
  have h2 := (h.fee (withFigures e k).fee).overcommitTest (e := e)
  unfold Machine.computePass
  simp only []
  split
  · exact Same.admitClaim _ (Same.applyAllowance (Same.fee _ h2))
  · exact Same.applyAllowance (Same.fee _ h2)

theorem Same.computeTimes (n : Nat) : ∀ {k : Core}, Same m k0 k → Same m k0 (computeTimes e n k) := by
  induction n with
  | zero => intro k h; exact h
  | succ n ih =>
    intro k h
    unfold Machine.computeTimes
    simp only []
    split
    · exact ih h.computePass
    · exact h.computePass

/-- A computation leaves the motion and the other blocks' conditions alone. -/
theorem Same.compute (h : Same m k0 k) : Same m k0 (compute e k) := by
  unfold Machine.compute
  split
  · exact h.computeTimes 3
  · exact Same.applyAllowance (h.fee _)

theorem Same.testAdmission (h : Same m k0 k) : Same m k0 (testAdmission e k) := by
  unfold Machine.testAdmission
  split
  · exact (h.admitClaim _).compute
  · exact h

theorem Same.dropClaim (h : Same m k0 k) : Same m k0 (dropClaim e k) :=
  Same.compute (Same.endCond _ rfl (Same.request _ (h.fee _)))

theorem Same.withdrawWaiting (h : Same m k0 k) : Same m k0 (withdrawWaiting e k) := by
  unfold Machine.withdrawWaiting
  split
  · exact h.dropClaim
  · exact h

theorem Same.withdrawClaim (h : Same m k0 k) : Same m k0 (withdrawClaim e k) := by
  unfold Machine.withdrawClaim
  split
  · exact h
  · exact h.dropClaim

theorem Same.requestClaim (c : ClaimKind) (x y : Bool) (h : Same m k0 k) : Same m k0 (requestClaim e c x y k) := by
  unfold Machine.requestClaim
  split
  · exact h
  · split
    · split
      · exact Same.compute (Same.request _
          ⟨h.1, h.2, h.3, h.4, h.5, h.6, h.7, h.8, h.9, h.10.frames forgetClaim, h.11, h.12, h.13, h.14⟩)
      · exact Same.compute (h.fee _)
      · unfold Machine.convertClaim
        split
        · exact h
        · exact Same.compute (h.fee _)
    · exact h.withdrawWaiting

theorem Same.evaluateHeat (h : Same m k0 k) : Same m k0 (evaluateHeat e k) := by
  unfold Machine.evaluateHeat
  split
  · have h1 : Same m k0 { k with heat := formDemands e k } :=
      ⟨h.1, h.2, h.3, h.4, h.5, h.6, h.7, h.8, h.9, h.10, h.11, h.12, h.13, h.14⟩
    simp only []
    split
    · exact h1.applyAllowance
    · exact Same.compute (Same.fee _ h1)
  · exact h

theorem Same.axis (h : Same true k0 k) (i : Axis) : motion (getAxis k i) = motion (getAxis k0 i) := by
  cases i
  · exact h.1 rfl
  · exact h.2 rfl

/-! ## The axes' own operations -/

theorem Same.putAxis (i : Axis) (r : AxisRec) (h : Same false k0 k) : Same false k0 (putAxis k i r) := by
  refine ⟨nofun, nofun, ?_, ?_, h.5, h.6, h.7, h.8, h.9, h.10, h.11, h.12, h.13, h.14⟩
  · rw [putAxis_derating]; exact h.3
  · rw [putAxis_onSource]; exact h.4

theorem Same.endRange (i : Axis) (h : Same false k0 k) : Same false k0 (endRange i k) := by
  cases i
  · exact h.endCond _ rfl
  · exact h

theorem Same.clearPending (i : Axis) (h : Same false k0 k) : Same false k0 (clearPending i k) := by
  unfold Machine.clearPending
  simp only []
  split
  · exact h.putAxis i _
  · exact h

theorem Same.takeHold (i : Axis) (h : Same false k0 k) : Same false k0 (takeHold i k) := by
  unfold Machine.takeHold
  simp only []
  split
  · exact (h.putAxis i _).endRange i
  · exact h

theorem Same.enterStopping (i : Axis) (h : Same false k0 k) : Same false k0 (enterStopping i k) := by
  unfold Machine.enterStopping
  simp only []
  split
  · exact (h.putAxis i _).endRange i
  · exact h

theorem Same.stowAxisFault (i : Axis) (h : Same false k0 k) : Same false k0 (stowAxisFault i k) := by
  unfold Machine.stowAxisFault
  split
  · split
    · exact h.takeHold _
    · exact h
  · exact (h.takeHold _).setStow _
  · exact (h.takeHold _).setStow _
  · exact h.setStow _
  · exact h

theorem Same.faultAxis (i : Axis) (h : Same false k0 k) : Same false k0 (faultAxis e i k) := by
  unfold Machine.faultAxis
  split
  · exact h
  · exact (((((h.putAxis i _).endRange i).stowAxisFault i).clearPending _).withdrawWaiting).syncStowFailed

theorem Same.enterUnbraking (i : Axis) (t : Target) (h : Same false k0 k) : Same false k0 (enterUnbraking e i t k) := by
  unfold Machine.enterUnbraking
  simp only []
  split
  · exact (h.putAxis i _).faultAxis i
  · exact h.putAxis i _

theorem Same.requestRelease (i : Axis) (t : Target) (h : Same false k0 k) : Same false k0 (requestRelease e i t k) := by
  unfold Machine.requestRelease
  split
  · exact h.putAxis i _
  · exact h.enterUnbraking i t

theorem Same.giveTarget (i : Axis) (t : Target) (h : Same false k0 k) : Same false k0 (giveTarget e i t k) := by
  have h0 := h.endRange i
  unfold Machine.giveTarget
  simp only []
  split
  · exact h0.requestRelease i t
  · exact h0.putAxis i _
  · exact h0.putAxis i _
  · split <;> exact h0.putAxis i _
  · exact h0

theorem Same.tryRelease (i : Axis) (h : Same false k0 k) : Same false k0 (tryRelease e i k) := by
  unfold Machine.tryRelease
  simp only []
  split
  · exact h.enterUnbraking i _
  · exact h

theorem Same.tryReleases (h : Same false k0 k) : Same false k0 (tryReleases e k) := (h.tryRelease .az).tryRelease .el

theorem Same.returnAxis (i : Axis) (h : Same false k0 k) : Same false k0 (returnAxis e i k) := by
  unfold Machine.returnAxis
  simp only []
  split
  · exact (h.putAxis i _).syncStowFailed
  · exact h

theorem Same.stopForLockout (h : Same false k0 k) : Same false k0 (stopForLockout e k) :=
  ((((h.enterStopping .az).enterStopping .el).clearPending .az).clearPending .el).withdrawClaim

theorem Same.holdForLockout (h : Same false k0 k) : Same false k0 (holdForLockout e k) := by
  have g : ∀ (i : Axis) (k : Core), Same false k0 k →
      Same false k0 (if isPointing (getAxis k i) = true then Machine.takeHold i k else k) := by
    intro i k h
    split
    · exact h.takeHold i
    · exact h
  exact (((g .el _ (g .az _ h)).clearPending .az).clearPending .el).withdrawWaiting

theorem Same.recomputeClaim (h : Same m k0 k) : Same m k0 (recomputeClaim e k) := by
  unfold Machine.recomputeClaim
  split
  · simp only []
    split
    · exact Same.compute (h.fee _)
    · split
      · exact h.dropClaim.setStow _
      · exact h.dropClaim
  · exact h

/-! ## The stow unit's -/

theorem Same.stowUnit (u : StowUnit) (h : Same m k0 k) (hc : u.causes = k.stow.causes) (hh : u.holdTimer = k.stow.holdTimer)
    (hp : u.park = k.stow.park) : Same m k0 { k with stow := u } :=
  ⟨h.1, h.2, h.3, h.4, h.5, h.6, h.7, h.8, h.9, h.10, hc.trans h.11, hh.trans h.12, fun hr => hp.trans (h.13 hr),
   fun hr => hp.trans (h.14 hr)⟩

theorem Same.stowElevation (h : Same false k0 k) : Same false k0 (stowElevation e k) := by
  unfold Machine.stowElevation
  split
  · exact h.clearPending _
  · exact h.giveTarget _ _

theorem Same.stowClaim (h : Same m k0 k) : Same m k0 (stowClaim e k) := by
  unfold Machine.stowClaim
  simp only []
  split
  · exact (h.requestClaim _ _ _).setStow _
  · exact h.requestClaim _ _ _

theorem Same.enterDemanded (h : Same false k0 k) : Same false k0 (enterDemanded e k) := by
  have h1 : Same false k0 (Machine.stowElevation e (stowAzimuth (Machine.setStow .demanded k))) :=
    Same.stowElevation (Same.clearPending _ (Same.takeHold _ (h.setStow _)))
  unfold Machine.enterDemanded
  simp only []
  split
  · exact h1.stowClaim
  · exact h1

theorem Same.demandStow (h : Same false k0 k) : Same false k0 (demandStow e k) := by
  unfold Machine.demandStow
  split
  · exact h.setStow _
  · split
    · exact h.setStow _
    · exact h.enterDemanded

theorem Same.arrivalTest (h : Same m k0 k) : Same m k0 (arrivalTest e k) := by
  unfold Machine.arrivalTest
  split
  · exact (h.setStow _).withdrawWaiting
  · exact h

theorem Same.enterStowed (h : Same false k0 k) : Same false k0 (enterStowed k) :=
  ((h.setStow _).enterStopping _).enterStopping _

theorem Same.drivePinIn (h : Same m k0 k) : Same m k0 (drivePinIn k) := h.stowUnit _ rfl rfl rfl

theorem Same.driveInTest (h : Same m k0 k) : Same m k0 (driveInTest k) := by
  unfold Machine.driveInTest
  split
  · exact h.drivePinIn
  · exact h

theorem Same.enterReleasing (h : Same false k0 k) : Same false k0 (enterReleasing e k) :=
  (((h.setStow _).giveTarget _ _).giveTarget _ _).driveInTest

theorem Same.blockStow (h : Same m k0 k) : Same m k0 (blockStow k) := by
  unfold Machine.blockStow
  split <;> first | exact h.setStow _ | exact h

theorem Same.holdElevation (h : Same false k0 k) : Same false k0 (holdElevation k) := by
  unfold Machine.holdElevation
  split
  · exact h.takeHold _
  · exact h

theorem Same.reevaluate (h : Same false k0 k) : Same false k0 (reevaluate e k) := by
  unfold Machine.reevaluate
  split
  · exact h.setStow _
  split
  · exact h.enterStowed
  split
  · exact (h.setStow _).holdElevation
  split
  · exact h.setStow _
  split
  · exact h.setStow _
  · exact h.enterDemanded

theorem Same.unblockStow (h : Same false k0 k) : Same false k0 (unblockStow e k) := by
  unfold Machine.unblockStow
  split
  · exact h.reevaluate
  · exact h

theorem Same.takeCauses (o : Causes) (h : Same false k0 k) : Same false k0 (takeCauses e o k) := by
  unfold Machine.takeCauses
  split
  · split
    · exact h
    · exact h.demandStow
  · split
    · exact h.setStow _
    · exact h
  · split
    · exact h.setStow _
    · exact h
  · exact h

/-- An update of the cause set sets it, and leaves alone what the stow unit's work leaves alone. -/
theorem updateCauses_causes (c : Causes) (k : Core) : (updateCauses e c k).stow.causes = c := by
  unfold Machine.updateCauses
  split
  · rename_i h; exact h.symm
  · simp only []
    split
    · exact (Same.takeCauses (k0 := { k with stow := withCauses c k.stow }) _ (Same.refl _)).causes
    · rfl

theorem updateCauses_same (c : Causes) (k : Core) :
    Same false { k with stow := { (updateCauses e c k).stow with park := k.stow.park } } (updateCauses e c k) := by
  unfold Machine.updateCauses
  split
  · exact ⟨nofun, nofun, rfl, rfl, fun _ _ => rfl, rfl, rfl, rfl, rfl, .refl _, rfl, rfl, id, id⟩
  · simp only []
    split
    · have h := Same.takeCauses (e := e) (k0 := { k with stow := withCauses c k.stow }) k.stow.causes (Same.refl _)
      exact ⟨nofun, nofun, h.3, h.4, h.5, h.6, h.7, h.8, h.9, h.10, rfl, rfl, h.13, h.14⟩
    · exact ⟨nofun, nofun, rfl, rfl, fun _ _ => rfl, rfl, rfl, rfl, rfl, .refl _, rfl, rfl, id, id⟩

/-! ## What a motion holds -/

section
variable {r r' : AxisRec} (h : motion r' = motion r)
include h

theorem motion_state : r'.state = r.state :=
  (congrArg AxisRec.state h : (motion r').state = (motion r).state)
theorem motion_target : r'.target = r.target :=
  (congrArg AxisRec.target h : (motion r').target = (motion r).target)
theorem motion_x : r'.x = r.x :=
  (congrArg AxisRec.x h : (motion r').x = (motion r).x)
theorem motion_v : r'.v = r.v :=
  (congrArg AxisRec.v h : (motion r').v = (motion r).v)
theorem motion_pending : r'.releasePending = r.releasePending :=
  (congrArg AxisRec.releasePending h : (motion r').releasePending = (motion r).releasePending)
theorem motion_moving : isMoving r' = isMoving r := isMoving_of_state (motion_state h)
theorem motion_brakeTimer : r'.brakeTimer = r.brakeTimer :=
  (congrArg AxisRec.brakeTimer h : (motion r').brakeTimer = (motion r).brakeTimer)
theorem motion_reading : r'.reading = r.reading :=
  (congrArg AxisRec.reading h : (motion r').reading = (motion r).reading)
theorem motion_engaging : r'.engaging = r.engaging :=
  (congrArg AxisRec.engaging h : (motion r').engaging = (motion r).engaging)
theorem motion_encoderFault : r'.encoderFault = r.encoderFault :=
  (congrArg AxisRec.encoderFault h : (motion r').encoderFault = (motion r).encoderFault)
end

end Sys2Proof.Machine
end

