-- ==== Sys2Proof/Laws/Conditions.lean ====
section
/-! SUPPORT. What a cause that appears or ends does (R170), and what the settling after every command leaves alone. -/

namespace Sys2Proof.Machine

variable {m : Bool} {k : Core}

/-! ## A cause appears -/

theorem wakeEvent_cond (k : Core) : (wakeEvent k).cond = k.cond := by unfold wakeEvent; split <;> rfl
theorem wakeEvent_line (k : Core) : (wakeEvent k).line = k.line := by unfold wakeEvent; split <;> rfl
theorem wakeEvent_fee (k : Core) : (wakeEvent k).fee = k.fee := by unfold wakeEvent; split <;> rfl
theorem wakeEvent_heat (k : Core) : (wakeEvent k).heat = k.heat := by unfold wakeEvent; split <;> rfl
theorem wakeEvent_state (k : Core) : (wakeEvent k).stow.state = k.stow.state := by unfold wakeEvent; split <;> rfl
theorem wakeEvent_causes (k : Core) : (wakeEvent k).stow.causes = k.stow.causes := by unfold wakeEvent; split <;> rfl
theorem wakeEvent_awake (k : Core) (h : ¬k.stow.park = .parked) : wakeEvent k = k := by simp [wakeEvent, h]

/-- A cause that appears makes its condition ACTIVE (R170). -/
theorem raiseCond_active (c : Cond) (k : Core) : condAt (raiseCond c k).cond c = .active := by
  unfold raiseCond
  split
  · assumption
  · simp only [wakeEvent_cond]
    split <;> exact condAt_setCond c .active k.cond

/-- A cause that appears leaves the other conditions alone. -/
theorem raiseCond_other {c d : Cond} (h : d ≠ c) (k : Core) : condAt (raiseCond c k).cond d = condAt k.cond d := by
  unfold raiseCond
  split
  · rfl
  · simp only [wakeEvent_cond]
    split <;> exact condAt_setCond_ne _ _ h

theorem raiseCond_fee (c : Cond) (k : Core) : (raiseCond c k).fee = k.fee := by
  unfold raiseCond
  split
  · rfl
  · simp only [wakeEvent_fee]; split <;> rfl

theorem raiseCond_heat (c : Cond) (k : Core) : (raiseCond c k).heat = k.heat := by
  unfold raiseCond
  split
  · rfl
  · simp only [wakeEvent_heat]; split <;> rfl

theorem raiseCond_state (c : Cond) (k : Core) : (raiseCond c k).stow.state = k.stow.state := by
  unfold raiseCond
  split
  · rfl
  · simp only [wakeEvent_state]; split <;> rfl

theorem raiseCond_line (c : Cond) (k : Core) : LineSame k.line (raiseCond c k).line := by
  unfold raiseCond
  split
  · exact .refl _
  · simp only [wakeEvent_line]
    split
    · exact (LineSame.frames (keepNotice (classOf c)) (.refl _)).requestOn .urgent
    · exact .refl _

/-- Beside its own condition a cause that appears leaves alone what requests and waking leave alone. -/
theorem raiseCond_same (c : Cond) (k : Core) :
    Same true { k with cond := { (raiseCond c k).cond with states := (raiseCond c k).cond.states } } (raiseCond c k) := by
  unfold raiseCond
  split
  · exact .refl _
  · refine Same.wakeEvent ?_
    split
    · exact ⟨fun _ => rfl, fun _ => rfl, rfl, rfl, fun _ _ => by simp only [wakeEvent_cond],
        by simp only [wakeEvent_cond], by simp only [wakeEvent_cond], by simp only [wakeEvent_cond], rfl,
        (LineSame.frames (keepNotice (classOf c)) (.refl _)).requestOn .urgent, rfl, rfl, id, id⟩
    · exact ⟨fun _ => rfl, fun _ => rfl, rfl, rfl, fun _ _ => by simp only [wakeEvent_cond],
        by simp only [wakeEvent_cond], by simp only [wakeEvent_cond], by simp only [wakeEvent_cond], rfl, .refl _, rfl,
        rfl, id, id⟩

/-- The motion of the axes as a cause that appears leaves it. -/
theorem raiseCond_motion (c : Cond) (k : Core) (i : Axis) : motion (getAxis (raiseCond c k) i) = motion (getAxis k i) :=
  (raiseCond_same c k).axis i

theorem raiseCond_masks (c : Cond) (k : Core) : (raiseCond c k).cond.masks = k.cond.masks := by
  unfold raiseCond
  split
  · rfl
  · simp only [wakeEvent_cond]; split <;> rfl

theorem raiseCond_causes (c : Cond) (k : Core) : (raiseCond c k).stow.causes = k.stow.causes :=
  (raiseCond_same c k).causes

/-! ## A cause ends -/

/-- A cause that ends leaves its condition other than ACTIVE (R170). -/
theorem endCond_notActive (c : Cond) (k : Core) : ¬condAt (endCond c k).cond c = .active := by
  unfold endCond
  split
  · rw [show condAt _ c = _ from condAt_setCond c .latched k.cond]; decide
  · assumption

/-- An ACTIVE condition whose cause ends is LATCHED, another stands (R170). -/
theorem endCond_own (c : Cond) (k : Core) :
    condAt (endCond c k).cond c = if condAt k.cond c = .active then .latched else condAt k.cond c := by
  unfold endCond
  split
  · exact condAt_setCond c .latched k.cond
  · rfl

theorem endCond_other {c d : Cond} (h : d ≠ c) (k : Core) : condAt (endCond c k).cond d = condAt k.cond d := by
  unfold endCond
  split
  · exact condAt_setCond_ne _ _ h
  · rfl

@[simp] theorem endCond_axes (c : Cond) (k : Core) : (endCond c k).axes = k.axes := by unfold endCond; split <;> rfl
@[simp] theorem endCond_stow (c : Cond) (k : Core) : (endCond c k).stow = k.stow := by unfold endCond; split <;> rfl
@[simp] theorem endCond_line (c : Cond) (k : Core) : (endCond c k).line = k.line := by unfold endCond; split <;> rfl
@[simp] theorem endCond_fee (c : Cond) (k : Core) : (endCond c k).fee = k.fee := by unfold endCond; split <;> rfl
@[simp] theorem endCond_heat (c : Cond) (k : Core) : (endCond c k).heat = k.heat := by unfold endCond; split <;> rfl
@[simp] theorem endCond_notices (c : Cond) (k : Core) : (endCond c k).cond.notices = k.cond.notices := by
  unfold endCond; split <;> rfl
@[simp] theorem endCond_masks (c : Cond) (k : Core) : (endCond c k).cond.masks = k.cond.masks := by
  unfold endCond; split <;> rfl
@[simp] theorem endCond_proof (c : Cond) (k : Core) : (endCond c k).cond.proof = k.cond.proof := by
  unfold endCond; split <;> rfl

/-! ## After every command -/

/-- A command on a live station answers its own work, settled. -/
theorem run_live (f : State → State) (s : State) (h : s.inReset = false) :
    run f s = .next (settle (intervalOf s) (f s)) := by rw [run_eq, work_live f s h]

/-- The settling may make a normal request; the line port's timers and counts it leaves alone (R118). -/
theorem settle_line (old : Nat) (s : State) : LineSame s.core.line (settle old s).core.line := by
  show LineSame _ (followInterval old s.env s.core).line
  unfold followInterval
  simp only []
  split
  · exact LineSame.requestOn .normal ⟨rfl, rfl, rfl, rfl, rfl, rfl, rfl, rfl, rfl, rfl, .inl rfl, id, id⟩
  · exact ⟨rfl, rfl, rfl, rfl, rfl, rfl, rfl, rfl, rfl, rfl, .inl rfl, id, id⟩

theorem settle_frame (old : Nat) (s : State) : (settle old s).core.line.frame = s.core.line.frame := by
  show (followInterval old s.env s.core).line.frame = _
  unfold followInterval; simp only []; split <;> rfl

/-- An interval in force that has not become longer makes no request. -/
theorem settle_request (old : Nat) (s : State) (h : intervalInForce s.env s.core ≤ old) :
    (settle old s).core.line.pending = s.core.line.pending ∧ (settle old s).core.line.tx = s.core.line.tx := by
  show (followInterval old s.env s.core).line.pending = _ ∧ (followInterval old s.env s.core).line.tx = _
  have h1 : intervalInForce s.env { s.core with line := { s.core.line with
      dueTaken := s.core.line.dueTaken && intervalReached s.env s.core } } = intervalInForce s.env s.core := rfl
  unfold followInterval
  simp only []
  split
  · omega
  · exact ⟨rfl, rfl⟩

theorem settle_store (old : Nat) (s : State) :
    (settle old s).store.valid = s.store.valid ∧ (settle old s).store.records = s.store.records
      ∧ (settle old s).store.marks = s.store.marks ∧ (settle old s).store.queue = s.store.queue
      ∧ (settle old s).store.writing = s.store.writing ∧ (settle old s).store.heat = s.core.heat.mode
      ∧ (settle old s).store.console = s.core.stow.causes.console := by
  have h := syncStore_fields (followInterval old s.env s.core) s.store
  rw [followInterval_heat, followInterval_stow] at h
  exact h

/-- An order's reception leaves the settings, the list, the slot and the store alone. -/
theorem hearOrder_parts (o : Order) (s : State) :
    (hearOrder o s).env = s.env ∧ (hearOrder o s).slot = s.slot ∧ (hearOrder o s).store = s.store
      ∧ (hearOrder o s).inReset = s.inReset ∧ (hearOrder o s).pending = s.pending
      ∧ (hearOrder o s).core.heat.mode = s.core.heat.mode := by
  unfold hearOrder
  split
  · exact ⟨rfl, rfl, rfl, rfl, rfl, rfl⟩
  split
  · refine ⟨rfl, rfl, rfl, rfl, rfl, ?_⟩
    show (discard s.env s.core).heat.mode = _
    unfold discard countNoise
    split
    · simp only []
      split
      · rw [raiseCond_heat]
      · rfl
    · rfl
  split
  · refine ⟨rfl, rfl, rfl, rfl, rfl, ?_⟩
    show (hearOther s.env s.core).heat.mode = _
    unfold hearOther
    split
    · exact (updateCauses_same _ _).mode.trans (by simp)
    · rfl
  · exact ⟨rfl, rfl, rfl, rfl, rfl, rfl⟩

/-- A taken order of good form: the owner's work on the station that has heard it, and the result. -/
theorem takeOrder_good {α : Type} {o : Order} {parse : List Byte → Option α} {a : α} {act : α → State → State × Code}
    {s : State} (ht : orderTaken o s = true) (hp : parse o.args = some a) :
    takeOrder o parse act s = giveResult o (act a (hearOrder o s)).2 (act a (hearOrder o s)).1 := by
  simp [takeOrder, ht, hp]

/-- A taken order of bad form is answered with ARGUMENT. -/
theorem takeOrder_bad {α : Type} {o : Order} {parse : List Byte → Option α} {act : α → State → State × Code}
    {s : State} (ht : orderTaken o s = true) (hp : parse o.args = none) :
    takeOrder o parse act s = giveResult o .argument (hearOrder o s) := by
  simp [takeOrder, ht, hp]

/-- An order not taken is heard and no more. -/
theorem takeOrder_ignored {α : Type} {o : Order} {parse : List Byte → Option α} {act : α → State → State × Code}
    {s : State} (ht : orderTaken o s = false) : takeOrder o parse act s = hearOrder o s := by
  simp [takeOrder, ht]

@[simp] theorem giveResult_env (o : Order) (c : Code) (s : State) : (giveResult o c s).env = s.env := rfl
@[simp] theorem giveResult_store (o : Order) (c : Code) (s : State) : (giveResult o c s).store = s.store := rfl
@[simp] theorem giveResult_slot (o : Order) (c : Code) (s : State) :
    (giveResult o c s).slot = { tag := o.tag, console := o.console, code := c } := rfl

/-- A result touches nothing of the blocks but the line port. -/
theorem giveResult_core (o : Order) (c : Code) (s : State) :
    (giveResult o c s).core.axes = s.core.axes ∧ (giveResult o c s).core.stow = s.core.stow
      ∧ (giveResult o c s).core.heat = s.core.heat ∧ (giveResult o c s).core.fee = s.core.fee
      ∧ (giveResult o c s).core.cond = s.core.cond ∧ LineSame s.core.line (giveResult o c s).core.line := by
  unfold giveResult
  simp only []
  split
  · exact ⟨rfl, rfl, rfl, rfl, rfl, (LineSame.refl _).requestOn .normal⟩
  · exact ⟨rfl, rfl, rfl, rfl, rfl, .refl _⟩

end Sys2Proof.Machine
end

