-- ==== Sys2Proof/Laws/Interval.lean ====
section
/-! SUPPORT. What the rest of a control interval leaves of the axis work: the loads' handing over and the stow unit's tests keep both profiles, phases, duties and readings (R9 to R15, R53 to R56). -/

namespace Sys2Proof.Machine

variable {e : Env} {k : Core}

/-- An axis record but for its state, its target and its timers: what the profile and the position loop write of it. -/
def profileOf (r : AxisRec) : AxisRec :=
  { r with
    state := .braked, engaging := false, target := .none, brakeTimer := none, brakeSeen := false, idleTimer := none,
    answered := none }

theorem profileOf_motion (r : AxisRec) : profileOf (motion r) = profileOf r := rfl

/-- The fields that an equal profile gives. -/
theorem profileOf_fields {r n : AxisRec} (h : profileOf r = profileOf n) :
    r.x = n.x ∧ r.v = n.v ∧ r.carry = n.carry ∧ r.lastDemand = n.lastDemand ∧ r.phase = n.phase ∧ r.load = n.load
      ∧ r.duty = n.duty ∧ r.followTimer = n.followTimer ∧ r.reading = n.reading := by
  simp only [profileOf, AxisRec.mk.injEq] at h
  simp [h]

/-- What leaves an axis's motion alone leaves its profile alone. -/
theorem profile_of_motion {k' : Core} (i : Axis) (h : motion (getAxis k' i) = motion (getAxis k i)) :
    profileOf (getAxis k' i) = profileOf (getAxis k i) := by
  rw [← profileOf_motion, h, profileOf_motion]

theorem Same.profile {k0 : Core} (h : Same true k0 k) (i : Axis) :
    profileOf (getAxis k i) = profileOf (getAxis k0 i) := profile_of_motion i (h.axis i)

theorem endRange_axis (i j : Axis) (k : Core) : getAxis (endRange i k) j = getAxis k j := by
  cases i
  · simp [endRange, getAxis]
  · rfl

theorem enterStopping_profile (i j : Axis) (k : Core) :
    profileOf (getAxis (enterStopping i k) j) = profileOf (getAxis k j) := by
  unfold enterStopping
  simp only []
  split
  · rw [endRange_axis]
    cases i <;> cases j <;> rfl
  · rfl

theorem settlePinFeedback_profile (i : Axis) (k : Core) :
    profileOf (getAxis (settlePinFeedback e k) i) = profileOf (getAxis k i) := by
  unfold settlePinFeedback
  split
  · simp [getAxis]
  · rfl

theorem pinFault_profile (i : Axis) (k : Core) : profileOf (getAxis (pinFault e k) i) = profileOf (getAxis k i) :=
  (settlePinFeedback_profile i _).trans
    ((((Same.refl _).setStow .failed).profile i).trans (profile_of_motion i (raiseCond_motion _ k i)))

theorem enterStowed_profile (i : Axis) (k : Core) : profileOf (getAxis (enterStowed k) i) = profileOf (getAxis k i) :=
  ((enterStopping_profile .el i _).trans (enterStopping_profile .az i _)).trans (((Same.refl k).setStow _).profile i)

theorem pinTests_profile (i : Axis) (k : Core) : profileOf (getAxis (pinTests e k) i) = profileOf (getAxis k i) := by
  unfold pinTests
  split
  · split
    · split
      · exact enterStowed_profile i k
      · exact pinFault_profile i k
    · rfl
  · split
    · exact ((Same.refl k).setStow _).profile i
    · split
      · rfl
      · exact pinFault_profile i k
  · split
    · split
      · exact pinFault_profile i k
      · exact ((Same.refl k).setStow _).profile i
    · rfl
  · rfl

/-- The stow unit's tests of a control interval keep both axes' profiles. -/
theorem stowTests_profile (i : Axis) (k : Core) : profileOf (getAxis (stowTests e k) i) = profileOf (getAxis k i) := by
  unfold stowTests
  simp only []
  split
  · exact (((Same.refl _).arrivalTest.driveInTest).profile i).trans
      ((pinTests_profile i _).trans (settlePinFeedback_profile i k))
  · exact settlePinFeedback_profile i k

/-- The handing over of the loads, the claim's end and the computation keep both axes' motion. -/
theorem takeLoads_motion (b : Bool) (i : Axis) (k : Core) : motion (getAxis (takeLoads e b k) i) = motion (getAxis k i) := by
  have h := Same.fee (m := true) (handLoads k) (Same.refl k)
  unfold takeLoads
  simp only []
  split
  · exact (Same.dropClaim h).axis i
  · split
    · exact h.axis i
    · exact (Same.compute h).axis i

theorem countOnSource_axis (i : Axis) (k : Core) : getAxis (countOnSource e k) i = getAxis k i := by
  unfold countOnSource
  cases i <;> split <;> rfl

/-- A control interval's work leaves both profiles as its axis work has made them. -/
theorem intervalWork_profile (x : Samples) (s : State) (i : Axis) :
    let read := readEncoders x (sampleAll x s)
    profileOf (getAxis (intervalWork x s).core i) = profileOf (getAxis (computeAxes read.env read.core) i) :=
  ((stowTests_profile i _).trans (congrArg profileOf (countOnSource_axis i _))).trans
    (profile_of_motion i (takeLoads_motion _ i _))

end Sys2Proof.Machine
end

