-- ==== Sys2Proof/Laws/PerInstr.lean ====
section
/-! SUPPORT. Two facts about every command, one lemma a constructor: a well-formed command hands on no more bytes than its frame or its section holds, and every command answers a next state. -/

namespace Sys2Proof.Laws

/-- The bytes a command hands on to a block: an order's payload, a beacon's payload, a section of the configuration
image (R112, R114, R180). A frame read off the line hands on its payload where it is intact, and none where not. -/
def handedOn : Instr → Nat
  | .point o | .hold o | .brake o | .stow o | .unstow o | .quiet o | .wake o | .lock o | .unlock o | .release o
  | .heat o | .clear o | .prove o => 4 + o.args.length
  | .undefinedOrderKind _ payload => payload.length
  | .peerBeacon _ payload => payload.length
  | .discardedFrame f => if Machine.frameIntact f then f.payload.length else 0
  | .sectionLoaded bytes => bytes.length
  | _ => 0

/-- The most bytes a command may hand on: 14 for an order, 33 for a beacon, 40 for a frame of whatever kind, 96 for a
section (R112, 12.5). -/
def handedOnMax : Instr → Nat
  | .point _ | .hold _ | .brake _ | .stow _ | .unstow _ | .quiet _ | .wake _ | .lock _ | .unlock _ | .release _
  | .heat _ | .clear _ | .prove _ | .undefinedOrderKind _ _ => 14
  | .peerBeacon _ _ => 33
  | .discardedFrame _ => 40
  | .sectionLoaded _ => 96
  | _ => 0

/-- A well-formed command hands on no more than its kind may. -/
def HandedOn.Statement (i : Instr) : Prop := wellFormed i = true → handedOn i ≤ handedOnMax i

theorem order_handedOn {o : Order} (h : orderWellFormed o = true) : 4 + o.args.length ≤ 14 := by
  simp only [orderWellFormed, Bool.and_eq_true, decide_eq_true_eq] at h
  omega

theorem HandedOn.point (o : Order) : HandedOn.Statement (.point o) := fun h => order_handedOn h
theorem HandedOn.hold (o : Order) : HandedOn.Statement (.hold o) := fun h => order_handedOn h
theorem HandedOn.brake (o : Order) : HandedOn.Statement (.brake o) := fun h => order_handedOn h
theorem HandedOn.stow (o : Order) : HandedOn.Statement (.stow o) := fun h => order_handedOn h
theorem HandedOn.unstow (o : Order) : HandedOn.Statement (.unstow o) := fun h => order_handedOn h
theorem HandedOn.quiet (o : Order) : HandedOn.Statement (.quiet o) := fun h => order_handedOn h
theorem HandedOn.wake (o : Order) : HandedOn.Statement (.wake o) := fun h => order_handedOn h
theorem HandedOn.lock (o : Order) : HandedOn.Statement (.lock o) := fun h => order_handedOn h
theorem HandedOn.unlock (o : Order) : HandedOn.Statement (.unlock o) := fun h => order_handedOn h
theorem HandedOn.release (o : Order) : HandedOn.Statement (.release o) := fun h => order_handedOn h
theorem HandedOn.heat (o : Order) : HandedOn.Statement (.heat o) := fun h => order_handedOn h
theorem HandedOn.clear (o : Order) : HandedOn.Statement (.clear o) := fun h => order_handedOn h
theorem HandedOn.prove (o : Order) : HandedOn.Statement (.prove o) := fun h => order_handedOn h
theorem HandedOn.peerBeacon (origin : Byte) (payload : List Byte) : HandedOn.Statement (.peerBeacon origin payload) := fun h => by
  have h2 := (Bool.and_eq_true_iff.mp h).2
  exact Nat.le_of_eq (eq_of_beq h2)
theorem HandedOn.ownNumberBeacon : HandedOn.Statement .ownNumberBeacon := fun _ => Nat.le_refl 0
theorem HandedOn.discardedFrame (f : RawFrame) : HandedOn.Statement (.discardedFrame f) := fun _ => by
  simp only [handedOn, handedOnMax]
  split
  · rename_i h
    simp only [Machine.frameIntact, Bool.and_eq_true, decide_eq_true_eq, beq_iff_eq] at h
    have h1 : f.length.toNat ≤ 40 := h.1.1.1.1.1.2
    have h2 : f.payload.length = f.length.toNat := h.1.2
    omega
  · omega
theorem HandedOn.stray : HandedOn.Statement .stray := fun _ => Nat.le_refl 0
theorem HandedOn.transmissionStart (gap : Nat) : HandedOn.Statement (.transmissionStart gap) := fun _ => Nat.le_refl 0
theorem HandedOn.lostArbitration (word : BitVec 15) : HandedOn.Statement (.lostArbitration word) := fun _ => Nat.le_refl 0
theorem HandedOn.abort : HandedOn.Statement .abort := fun _ => Nat.le_refl 0
theorem HandedOn.breakEnd : HandedOn.Statement .breakEnd := fun _ => Nat.le_refl 0
theorem HandedOn.restTimerExpiry : HandedOn.Statement .restTimerExpiry := fun _ => Nat.le_refl 0
theorem HandedOn.beaconComplete : HandedOn.Statement .beaconComplete := fun _ => Nat.le_refl 0
theorem HandedOn.duplicateTimerExpiry : HandedOn.Statement .duplicateTimerExpiry := fun _ => Nat.le_refl 0
theorem HandedOn.isolationTimerExpiry : HandedOn.Statement .isolationTimerExpiry := fun _ => Nat.le_refl 0
theorem HandedOn.beaconIntervalDue : HandedOn.Statement .beaconIntervalDue := fun _ => Nat.le_refl 0
theorem HandedOn.noiseDecay : HandedOn.Statement .noiseDecay := fun _ => Nat.le_refl 0
theorem HandedOn.peerStale (station : Nat) : HandedOn.Statement (.peerStale station) := fun _ => Nat.le_refl 0
theorem HandedOn.peerExpiry (station : Nat) : HandedOn.Statement (.peerExpiry station) := fun _ => Nat.le_refl 0
theorem HandedOn.controlInterval (samples : Samples) : HandedOn.Statement (.controlInterval samples) := fun _ => Nat.le_refl 0
theorem HandedOn.onSourceSet : HandedOn.Statement .onSourceSet := fun _ => Nat.le_refl 0
theorem HandedOn.followTimeout (axis : Axis) : HandedOn.Statement (.followTimeout axis) := fun _ => Nat.le_refl 0
theorem HandedOn.brakeReleasedFeedback (axis : Axis) : HandedOn.Statement (.brakeReleasedFeedback axis) := fun _ => Nat.le_refl 0
theorem HandedOn.brakeEngagedFeedback (axis : Axis) : HandedOn.Statement (.brakeEngagedFeedback axis) := fun _ => Nat.le_refl 0
theorem HandedOn.brakeTimeout (axis : Axis) : HandedOn.Statement (.brakeTimeout axis) := fun _ => Nat.le_refl 0
theorem HandedOn.brakeMismatch (axis : Axis) : HandedOn.Statement (.brakeMismatch axis) := fun _ => Nat.le_refl 0
theorem HandedOn.idleBrakeExpiry (axis : Axis) : HandedOn.Statement (.idleBrakeExpiry axis) := fun _ => Nat.le_refl 0
theorem HandedOn.encoderRecovered (axis : Axis) : HandedOn.Statement (.encoderRecovered axis) := fun _ => Nat.le_refl 0
theorem HandedOn.limitSwitch (axis : Axis) (upper : Bool) : HandedOn.Statement (.limitSwitch axis upper) := fun _ => Nat.le_refl 0
theorem HandedOn.ampFaultInput : HandedOn.Statement .ampFaultInput := fun _ => Nat.le_refl 0
theorem HandedOn.pinInputTaken (input : PinInput) : HandedOn.Statement (.pinInputTaken input) := fun _ => Nat.le_refl 0
theorem HandedOn.pinTimeout : HandedOn.Statement .pinTimeout := fun _ => Nat.le_refl 0
theorem HandedOn.releaseHoldExpiry : HandedOn.Statement .releaseHoldExpiry := fun _ => Nat.le_refl 0
theorem HandedOn.wakeSettleEnd : HandedOn.Statement .wakeSettleEnd := fun _ => Nat.le_refl 0
theorem HandedOn.anemometerPulse : HandedOn.Statement .anemometerPulse := fun _ => Nat.le_refl 0
theorem HandedOn.binEnd (lost : Nat) : HandedOn.Statement (.binEnd lost) := fun _ => Nat.le_refl 0
theorem HandedOn.gustValid (lost : Nat) : HandedOn.Statement (.gustValid lost) := fun _ => Nat.le_refl 0
theorem HandedOn.blockEnd (lost : Nat) : HandedOn.Statement (.blockEnd lost) := fun _ => Nat.le_refl 0
theorem HandedOn.stallExpiry (lost : Nat) : HandedOn.Statement (.stallExpiry lost) := fun _ => Nat.le_refl 0
theorem HandedOn.windProofVerdict (lost : Nat) : HandedOn.Statement (.windProofVerdict lost) := fun _ => Nat.le_refl 0
theorem HandedOn.graceExpiry : HandedOn.Statement .graceExpiry := fun _ => Nat.le_refl 0
theorem HandedOn.settleIntervalEnd : HandedOn.Statement .settleIntervalEnd := fun _ => Nat.le_refl 0
theorem HandedOn.fillTimeEnd : HandedOn.Statement .fillTimeEnd := fun _ => Nat.le_refl 0
theorem HandedOn.stowWaitLimit : HandedOn.Statement .stowWaitLimit := fun _ => Nat.le_refl 0
theorem HandedOn.keyTaken (key : Fin 4) : HandedOn.Statement (.keyTaken key) := fun _ => Nat.le_refl 0
theorem HandedOn.recordWriteEnd : HandedOn.Statement .recordWriteEnd := fun _ => Nat.le_refl 0
theorem HandedOn.pollRound (answers : PollAnswers) : HandedOn.Statement (.pollRound answers) := fun _ => Nat.le_refl 0
theorem HandedOn.sensorFault (sensor : Sensor) : HandedOn.Statement (.sensorFault sensor) := fun _ => Nat.le_refl 0
theorem HandedOn.wetChange : HandedOn.Statement .wetChange := fun _ => Nat.le_refl 0
theorem HandedOn.wetMemoryExpiry : HandedOn.Statement .wetMemoryExpiry := fun _ => Nat.le_refl 0
theorem HandedOn.cycleStart (zone : Fin 4) : HandedOn.Statement (.cycleStart zone) := fun _ => Nat.le_refl 0
theorem HandedOn.onTimeEnd (zone : Fin 4) : HandedOn.Statement (.onTimeEnd zone) := fun _ => Nat.le_refl 0
theorem HandedOn.zoneFeedbackTimeout (zone : Fin 4) : HandedOn.Statement (.zoneFeedbackTimeout zone) := fun _ => Nat.le_refl 0
theorem HandedOn.feedbackProofVerdict : HandedOn.Statement .feedbackProofVerdict := fun _ => Nat.le_refl 0
theorem HandedOn.resetAsserted (ms : Nat) (cuts : ItemCuts) (cutEmptying : Bool) :
    HandedOn.Statement (.resetAsserted ms cuts cutEmptying) := fun _ => Nat.le_refl 0
theorem HandedOn.supplyFailure (ms : Nat) (lost : Bool) (cuts : ItemCuts) (cutEmptying : Bool) :
    HandedOn.Statement (.supplyFailure ms lost cuts cutEmptying) := fun _ => Nat.le_refl 0
theorem HandedOn.startInstant : HandedOn.Statement .startInstant := fun _ => Nat.le_refl 0
theorem HandedOn.sectionLoaded (bytes : List Byte) : HandedOn.Statement (.sectionLoaded bytes) := fun h => of_decide_eq_true h
theorem HandedOn.configurationComplete : HandedOn.Statement .configurationComplete := fun _ => Nat.le_refl 0
theorem HandedOn.undefinedOrderKind (console : Byte) (payload : List Byte) :
    HandedOn.Statement (.undefinedOrderKind console payload) := fun h => by
  simp only [wellFormed, Bool.and_eq_true, decide_eq_true_eq] at h
  exact h.1.2

/-- Every command answers a next state: the station stops on none. -/
theorem exec_next (i : Instr) (s : Machine.State) : ∃ t, Machine.exec i s = .next t := by
  cases i <;> exact ⟨_, rfl⟩

/-- Every step answers a next state. -/
theorem step_next (s : Machine.State) : ∃ t, Machine.step s = .next t := by
  unfold Machine.step
  split
  · exact ⟨_, rfl⟩
  · exact exec_next _ _

end Sys2Proof.Laws
end

