-- ==== Sys2Proof/Tests/Slice0.lean ====
section
/-! SUPPORT. The tests: ill-formed commands are refused, the worked examples of spec/ come out as printed there, commands have the effects the rules give, and every statement with hypotheses has a witness. -/

namespace Sys2Proof.Tests

open Sys2Proof.Machine

set_option Elab.async false

/-! ## Builders -/

/-- An order from console 230 with tag 7, scoped STATION to station 15. -/
def order (args : List Byte) : Order := { console := 230, tag := 7, scope := 1, number := 15, args := args }

def keyList : Four KeyConfig := ⟨⟨.drive, .activeHigh⟩, ⟨.drive, .disabled⟩, ⟨.area, .disabled⟩, ⟨.heat, .disabled⟩⟩

/-- Station 15 on feeder 2, subarray 3, neighbours 16 and 17, wind list 20. -/
def identity : SecA :=
  { station := 15, feeder := 2, subarray := 3, neighbours := [16, 17], windList := [20], keys := keyList,
    bitRate := .k250, exponent := 10 }

/-- Every section installed, configuration completed. -/
def configuredSetup : Setup :=
  { startSetup with
    secA := some identity, statusA := .installed, statusB := .installed, statusC := .installed, statusD := .installed,
    loading := none, encodersRead := true, configured := true }

/-- A station that has completed its configuration, with its gust valid, nothing moving and an empty list. -/
def live : State :=
  { State.reset with
    inReset := false, store := emptyStore
    env := { startEnv with setup := configuredSetup, wind := { startWind with gustValid := true, grace := none } } }

def withCore (f : Core → Core) (s : State) : State := { s with core := f s.core }
def withEnv (f : Env → Env) (s : State) : State := { s with env := f s.env }
def withAxis (i : Axis) (f : AxisRec → AxisRec) (s : State) : State := withCore (fun k => putAxis k i (f (getAxis k i))) s
def withStow (f : StowUnit → StowUnit) : State → State := withCore fun k => { k with stow := f k.stow }
def withLine (f : LinePort → LinePort) : State → State := withCore fun k => { k with line := f k.line }
def withClaim (f : Claim → Claim) : State → State :=
  withCore fun k => { k with fee := { k.fee with claim := f k.fee.claim } }
def withZone (z : Fin 4) (f : Zone → Zone) : State → State := withCore fun k => putZone k z (f (fourGet k.heat.zones z))
def withCond (c : Cond) (st : CondState) : State → State := withCore fun k => { k with cond := setCond c st k.cond }
def withWind (f : Wind → Wind) : State → State := withEnv fun e => { e with wind := f e.wind }
def withParams (f : Setup → Setup) : State → State := withEnv fun e => { e with setup := f e.setup }
def withSampled (f : Inputs → Inputs) : State → State := withEnv fun e => { e with inputs := f e.inputs }
def withList (l : List Lock) : State → State := withEnv fun e => { e with list := l }
def withPeers (l : List Peer) : State → State := withEnv fun e => { e with peers := l }

/-- What a command makes of a state. -/
def after (c : Instr) (s : State) : State :=
  match exec c s with
  | .next t => t
  | _ => s

/-- A FRESH record of a feeder mate with no claim and no votes. -/
def mate (n : Nat) : Peer :=
  { station := n, relFeeder := true, relNeighbour := false, relWind := false, exponent := 10, feeder := 2, budget := 4000,
    load := 60, claimKind := .none, claimState := .none, need := 0, waitAge := 0, demand := 0, gust := 0, vote := .none,
    kinds := 0, age := 0, sub := 0, isFresh := true }

/-! ## WellFormed -/

theorem test_order_from_a_station_is_ill_formed :
    wellFormed (.hold { order [] with console := 223 }) = false ∧ wellFormed (.hold { order [] with console := 224 }) = true
      ∧ wellFormed (.hold { order [] with console := 239 }) = true
      ∧ wellFormed (.hold { order [] with console := 240 }) = false := by decide

theorem test_order_too_long_is_ill_formed :
    wellFormed (.point (order (List.replicate 11 0))) = false ∧ wellFormed (.point (order (List.replicate 10 0))) = true := by
  decide

theorem test_defined_kind_is_not_undefined :
    wellFormed (.undefinedOrderKind 230 [7, 1, 15, 13]) = false ∧ wellFormed (.undefinedOrderKind 230 [7, 1, 15, 14]) = true
      ∧ wellFormed (.undefinedOrderKind 230 [7, 1, 15]) = true ∧ wellFormed (.undefinedOrderKind 230 []) = true
      ∧ wellFormed (.undefinedOrderKind 223 []) = false
      ∧ wellFormed (.undefinedOrderKind 230 (List.replicate 15 0)) = false := by decide

theorem test_beacon_form :
    wellFormed (.peerBeacon 0 (List.replicate 33 0)) = false ∧ wellFormed (.peerBeacon 65 (List.replicate 33 0)) = false
      ∧ wellFormed (.peerBeacon 64 (List.replicate 32 0)) = false
      ∧ wellFormed (.peerBeacon 64 (List.replicate 33 0)) = true := by decide

/-- A frame of these first two characters and this payload, its CRC good. -/
def frameOf (first second : Byte) (payload : List Byte) : RawFrame :=
  let crc := crc16 ([first, second, BitVec.ofNat 8 payload.length] ++ payload)
  { first := first, second := second, length := BitVec.ofNat 8 payload.length, payload := payload,
    checkHigh := crc.extractLsb' 8 8, checkLow := crc.extractLsb' 0 8, stopsGood := true, unbroken := true }

/-- An order frame of console 230 at priority 1 (001 11100110 1001 and the fill bit), with this payload. -/
def orderFrame (payload : List Byte) : RawFrame := frameOf 0x3C 0xD3 payload

theorem test_frame_longer_than_its_length_is_ill_formed :
    wellFormed (.discardedFrame { orderFrame [7] with payload := [7, 1] }) = false
      ∧ wellFormed (.discardedFrame (orderFrame [7])) = true := by decide +kernel

theorem test_number_of_no_station_is_ill_formed :
    wellFormed (.peerStale 0) = false ∧ wellFormed (.peerStale 1) = true ∧ wellFormed (.peerExpiry 64) = true
      ∧ wellFormed (.peerExpiry 65) = false := by decide

theorem test_more_lost_than_counted_is_ill_formed :
    wellFormed (.binEnd 1023) = true ∧ wellFormed (.binEnd 1024) = false ∧ wellFormed (.gustValid 1024) = false
      ∧ wellFormed (.blockEnd 1024) = false ∧ wellFormed (.stallExpiry 1024) = false
      ∧ wellFormed (.windProofVerdict 1024) = false := by decide

theorem test_short_reset_is_ill_formed :
    wellFormed (.resetAsserted 0 ⟨false, false⟩ false) = false ∧ wellFormed (.resetAsserted 1 ⟨false, false⟩ false) = true := by decide

theorem test_store_lost_within_hold_up_is_ill_formed :
    wellFormed (.supplyFailure 200 true ⟨false, false⟩ false) = false ∧ wellFormed (.supplyFailure 201 true ⟨false, false⟩ false) = true
      ∧ wellFormed (.supplyFailure 0 false ⟨false, false⟩ false) = true := by decide

theorem test_section_too_long_is_ill_formed :
    wellFormed (.sectionLoaded (List.replicate 97 0)) = false ∧ wellFormed (.sectionLoaded (List.replicate 96 0)) = true := by
  decide

/-! ## Layouts (chapters 6 and 12) -/

/-- The check value of the CRC with this polynomial, initial value and no inversion, over the digits 1 to 9. -/
theorem test_crc_of_nine_digits : crc16 [0x31, 0x32, 0x33, 0x34, 0x35, 0x36, 0x37, 0x38, 0x39] = 0x29B1#16 := by
  decide +kernel

/-- The words of the example at one gap: 12 urgent, console 226's order, 3 and 9 normal. -/
theorem test_arbitration_words :
    ownWord { identity with station := 12 } .urgent = 0b000000011000101#15
      ∧ arbitrationWord 1 226 orderKind = 0b001111000101001#15
      ∧ ownWord { identity with station := 3 } .normal = 0b010000000110101#15
      ∧ ownWord { identity with station := 9 } .normal = 0b010000010010101#15 := by decide +kernel

/-- Beacon and POINT order frames take 1,520 µs and 760 µs at 4 µs a bit. -/
theorem test_frame_times : frameBits 33 * 4 = 1520 ∧ frameBits 14 * 4 = 760 := by decide

/-- A beacon's first bytes as 12.2 places them: exponent 10, posture 3, feeder 2, subarray 3, budget 4,000. -/
theorem test_beacon_bytes :
    (encodeBeacon { decodeBeacon [] with exponent := 10, posture := 3, feeder := 2, subarray := 3, budget := 4000 }).take 4
      = [0xA3, 0x23, 0x0F, 0xA0] := by decide +kernel

/-! ## Axis examples (chapter 1) -/

/-- The slew example's axis, on azimuth, whose soft range holds its positions. -/
def slewing : State :=
  withParams (fun p => { p with secB := { p.secB with az := { p.secB.az with amax := 2000 } } })
    (withAxis .az (fun r => { r with state := .active, target := .slew 2000, reading := some 0 }) live)

def oneInterval (s : State) : State := withAxis .az (fun _ => axisInterval s.env s.core .az) s

def motionOf (s : State) : Int × Int × Int := (s.core.axes.az.v, s.core.axes.az.x, s.core.axes.az.carry)

/-- The table of the slew example, row by row. -/
theorem test_slew_table :
    let s1 := oneInterval slewing
    let s2 := oneInterval s1
    let s3 := oneInterval s2
    let s4 := oneInterval s3
    let s5 := oneInterval s4
    let s6 := oneInterval s5
    (motionOf s1, motionOf s2, motionOf s3) = ((20000, 200, 0), (40000, 600, 0), (60000, 1200, 0))
      ∧ (motionOf s4, motionOf s5, motionOf s6) = ((56568, 1765, 68), (36568, 2131, 36), (0, 2000, 0))
      ∧ s6.core.axes.az.target = .hold 2000 ∧ s6.core.axes.az.idleTimer = some 0
      ∧ s6.core.axes.az.phase = .rest := by decide +kernel

theorem test_braking_speeds :
    [2000, 1800, 1400, 800, 235, -131].map (brakingSpeed 2000000) = [89442, 84852, 74833, 56568, 30659, 22891] := by
  decide +kernel

/-- One step below 500 for a small negative quotient. -/
theorem test_duty_is_floored : loopDuty defaultAxis 2000 0 2080 = 499 := by decide +kernel

/-- The rows of the azimuth turn example, in µdeg. -/
theorem test_azimuth_turn :
    [(250000000, 100000000), (200000000, 300000000), (10000000, 190000000), (0, 180000000)].map
        (fun (q : Int × Int) => azimuthTurn (-270000000) 270000000 q.1 q.2)
      = [⟨100000000, false⟩, ⟨-60000000, false⟩, ⟨-170000000, false⟩, ⟨180000000, false⟩]
    ∧ azimuthTurn (-100000000) 100000000 0 200000000 = ⟨-100000000, true⟩ := by decide +kernel

/-! ## Wind examples (chapter 2) -/

def gusty : SecC := { defaultC with voff := 3 }

/-- The bins of the gust example. -/
def bins : List Nat := [14, 16, 18, 20, 22, 21, 19, 17, 16, 15, 14, 13]

theorem test_bin_speeds :
    bins.map (binSpeed gusty) = [143, 163, 183, 203, 223, 213, 193, 173, 163, 153, 143, 133] ∧ binSpeed gusty 0 = 0 := by
  decide

/-- The example's station, after a calm spell, with eleven bins in its ring. -/
def elevenBins : State :=
  withParams (fun p => { p with secC := gusty })
    (withWind
      (fun w =>
        { w with
          ring := (bins.take 11).map (binSpeed gusty), blocks := [0], live := 13, gustValid := false,
          binClock := some 250 })
      live)

def gustAndVote (s : State) : Nat × Vote := (s.env.wind.gust, s.env.wind.vote)

/-- The twelfth bin gives 17.3 m/s and WATCH, bins of 30 and 33 pulses 18.7 m/s and then 20.1 m/s and STOW. -/
theorem test_gust_table :
    let s12 := after (.gustValid 0) elevenBins
    let s13 := after (.binEnd 0) (withWind (fun w => { w with live := 30 }) s12)
    let s14 := after (.binEnd 0) (withWind (fun w => { w with live := 33 }) s13)
    gustAndVote s12 = (173, .watch) ∧ gustAndVote s13 = (187, .watch) ∧ gustAndVote s14 = (201, .stow)
      ∧ s14.core.stow.causes.windLocal = true := by decide +kernel

theorem test_mean_of_three_blocks : (formMean { startWind with blocks := [7200, 7500, 8100] }).mean = 126 := by decide

theorem test_synthetic_count : syntheticCount gusty = 30 := by decide +kernel

/-- The proof record after n shadow bins that lose some of their transitions. -/
def shadows (lost : Nat) : Nat → WindProof
  | 0 => { accepting := false, atSwitch := 0, ring := List.replicate 12 0, vote := .none, synthetic := 30, bins := 0 }
  | n + 1 => proofNext gusty lost (shadows lost n)

/-- The proof passes at the eighth shadow bin, with every third pulse lost at the twelfth, with half lost it fails. -/
theorem test_wind_proof_verdicts :
    proofVerdict (shadows 0 7) = none ∧ proofVerdict (shadows 0 8) = some true
      ∧ proofVerdict (shadows 10 11) = none ∧ proofVerdict (shadows 10 12) = some true
      ∧ proofVerdict (shadows 15 15) = none ∧ proofVerdict (shadows 15 16) = some false := by decide +kernel

/-! ## Lockout examples (chapter 4) -/

/-- The list of the console example, with three more console records to make six, and all writes ended. -/
def sixConsoles : State :=
  withList
    [newLock .area (.console 226), newLock .drive (.key 0), newLock .point (.console 230), newLock .heat (.console 224),
      newLock .heat (.console 225), newLock .area (.console 227), newLock .area (.console 228)]
    live

def fromConsole (c : Byte) (args : List Byte) : Order := { order args with console := c }

/-- The example table's six orders within 2 ms of each other, and the last LOCK after the removal is written. -/
theorem test_console_table :
    let a := after (.lock (fromConsole 226 [4])) sixConsoles
    let b := after (.lock (fromConsole 231 [3])) { sixConsoles with store := { sixConsoles.store with valid := true } }
    let c := after (.lock (fromConsole 232 [5])) b
    let d := after (.unlock (fromConsole 226 [1])) c
    let e := after (.unlock (fromConsole 226 [2])) d
    (a.slot.code, a.env.list == sixConsoles.env.list) = (.done, true)
      ∧ [b, c, d, e].map (fun s => s.slot.code) = [.done, .full, .owner, .done]
      ∧ e.env.list = sixConsoles.env.list ++ [newLock .heat (.console 231)] := by decide +kernel

theorem test_unwritten_removal_counts :
    let b := withList (sixConsoles.env.list ++ [newLock .heat (.console 231)]) sixConsoles
    let f := after (.unlock (fromConsole 226 [4])) b
    let g := after (.lock (fromConsole 232 [5])) f
    let w := { f with store := { f.store with writing := f.store.writing.map fun p => (p.1, 2) } }
    let h := after (.lock (fromConsole 232 [5])) (after .recordWriteEnd w)
    [f, g, h].map (fun s => s.slot.code) = [.done, .full, .done] := by decide +kernel

/-- Station 18's store as the warm-reset example leaves it. -/
def cutStore : Store :=
  { emptyStore with
    records :=
      [{ newLock .heat (.console 228) with age := 1200 }, { newLock .area (.key 2) with age := 600 },
        newLock .drive (.console 231)]
    marks := [⟨.drive, .console 231⟩, ⟨.heat, .console 228⟩] }

/-- The list rebuilt: HEAT 228 and DRIVE 231 UNCERTAIN, AREA KEY3 HELD; ALL and AREA announced. -/
theorem test_warm_rebuild :
    rebuildList cutStore =
        [{ newLock .heat (.console 228) with age := 1200, uncertain := true },
          { newLock .area (.key 2) with age := 600 }, { newLock .drive (.console 231) with uncertain := true }]
      ∧ announcedKinds (rebuildList cutStore) = kindBit .all ||| kindBit .area := by decide +kernel

/-! ## Heater examples (chapter 5) -/

def air (t : Int) (wet : Bool) (memory : Option Nat) : Core :=
  { live.core with heat := { live.core.heat with ambient := some t, wet := wet, memory := memory } }

/-- The rows of the zone target table. -/
theorem test_zone_targets :
    [air 50 false none, air 25 true none, air 15 true none, air 15 false (some 0), air 5 false (some 0), air 5 false none,
        air (-150) true none].map (zoneTarget live.env)
      = [.none, .none, .melt, .none, .melt, .antiIce, .melt]
    ∧ zoneTarget live.env (withCond .ambientSensor .active { live with core := air 50 false none }).core = .antiIce := by
  decide +kernel

/-! ## Feeder and heater example of station 7 (chapters 5 and 8) -/

/-- Both axes hold ACTIVE, four zones read as the example says, a settled WAITING SLEW claim of amount 900. -/
def station7 : State :=
  let hold (r : AxisRec) : AxisRec := { r with state := .active, target := .hold 0, load := 30 }
  let zone (t : Int) : Zone := { startZone with reading := some t }
  withPeers
    [{ mate 3 with load := 900, claimKind := .slew, claimState := .active },
      { mate 9 with load := 150, claimKind := .slew, claimState := .waiting, need := 750, waitAge := 7, demand := 400 },
      { mate 12 with load := 150, demand := 300, isFresh := false }]
    (withParams (fun p => { p with secA := some { identity with station := 7 } })
      (withCore
        (fun k =>
          { k with
            axes := { k.axes with az := hold k.axes.az, el := hold k.axes.el }
            heat :=
              { k.heat with
                ambient := some (-40), wet := true, zones := ⟨zone (-20), zone 2, zone 18, zone 35⟩ }
            fee :=
              { k.fee with
                fill := none, loadAz := 30, loadEl := 30
                claim :=
                  { k.fee.claim with
                    kind := .slew, state := .waiting, accAz := true, accEl := true, amount := 900, need := 840,
                    waitAge := 4, announced := some 0, announcedAge := 4, settled := true } } })
        { live with env := { live.env with now := 100 } }))

/-- The figures of the example: pool 650, allowance 300, scale 500, duties 500, 350, 150, 0 and a load of 300; the claim
is admitted and the drive total becomes 2,400. -/
theorem test_station_7 :
    let k := evaluateHeat station7.env station7.core
    k.fee.claim.state = .active ∧ k.fee.drive = 2400 ∧ k.fee.raw = 1400 ∧ k.fee.pool = 650 ∧ k.fee.allowance = 300
      ∧ k.heat.demand = 600 ∧ k.heat.scale = 500 ∧ fourMap (fun z => z.demand) k.heat.zones = ⟨1000, 700, 300, 0⟩
      ∧ fourMap (fun z => z.output) k.heat.zones = ⟨500, 350, 150, 0⟩ ∧ k.heat.load = 300 := by decide +kernel

/-- What the example finds at 8 s: the allowance of 150 cuts each zone in proportion. -/
theorem test_cut_at_8_s :
    let z (on : Bool) (cycle phase : Nat) : Zone := { startZone with on := on, cycle := cycle, output := cycle, phase := phase }
    [lowerZone 20000 250 (z true 500 8000), lowerZone 20000 175 (z true 350 3000), lowerZone 20000 75 (z false 150 18000)].map
        (fun z => (z.output, z.cycle, z.on))
      = [(250, 250, false), (175, 175, true), (75, 75, false)]
    ∧ heaterScale 150 600 = 250 ∧ heaterScale 232 390 = 594 := by decide

/-! ## Peer table examples (chapter 7) -/

/-- Exponents 8, 10 and 13 are STALE at 8, 31 and 246 periods and expire at 21, 82 and 656, and not one earlier. -/
theorem test_ages :
    [(8, 8), (10, 31), (13, 246)].map
        (fun (q : Nat × Nat) =>
          (staleDue { mate 14 with exponent := q.1, age := q.2 - 1 }, staleDue { mate 14 with exponent := q.1, age := q.2 }))
      = [(false, true), (false, true), (false, true)]
    ∧ [(8, 21), (10, 82), (13, 656)].map
        (fun (q : Nat × Nat) =>
          (expiryDue { mate 14 with exponent := q.1, age := q.2 - 1 },
            expiryDue { mate 14 with exponent := q.1, age := q.2 }))
      = [(false, true), (false, true), (false, true)] := by decide

def stranger (n age : Nat) : Peer := { mate n with relFeeder := false, relWind := true, feeder := 3, age := age }

/-- A full table of FRESH records: a feeder mate evicts the oldest that is none, another newcomer nobody; a STALE record
goes first. -/
theorem test_eviction :
    (evicted (mate 57) [mate 39, stranger 33 7, stranger 32 4, stranger 48 9]).map (·.station) = some 48
      ∧ evicted (stranger 48 0) [mate 39, stranger 33 7, stranger 32 4, mate 57] = none
      ∧ (evicted (stranger 48 0) [{ mate 61 with isFresh := false, age := 31 }, stranger 32 90]).map (·.station) = some 61 := by
  decide +kernel

/-! ## States for the tests below -/

/-- A POINT order with its four arguments in mdeg and mdeg/s. -/
def pointTo (az el azRate elRate : Int) : Order :=
  order (bytes24 (BitVec.ofInt 24 az) ++ bytes24 (BitVec.ofInt 24 el) ++ bytes16 (BitVec.ofInt 16 azRate)
    ++ bytes16 (BitVec.ofInt 16 elRate))

def inState (i : Axis) (st : AxisState) : State → State := withAxis i fun r => { r with state := st }
def stowIn (st : StowState) : State → State := withStow fun u => { u with state := st }
def parkIn (p : Park) : State → State := withStow fun u => { u with park := p }
def byConsole : State → State := withStow fun u => { u with causes := { u.causes with console := true } }

/-- Azimuth moves at 50 mdeg/s, elevation engages its brake with a target kept for the release. -/
def moving : State :=
  withAxis .az (fun r => { r with state := .active, target := .slew 5000000, v := 50000, x := 1000 })
    (withAxis .el (fun r => { r with state := .stopping, engaging := true, target := .slew 50000000, releasePending := true })
      live)

/-- Both axes at the stow angle, the dish stowed by its console, the pin taken as in. -/
def stowed : State :=
  let f (level : Bool) : Filter := { sampled := true, level := level, held := 50, taken := some level }
  byConsole (stowIn .stowed
    (withSampled (fun n => { n with pinEngaged := f true, pinRetracted := f false })
      (withAxis .el (fun r => { r with x := 90000000, reading := some 90000000 }) live)))

def heldLock (k : LockKind) (o : Origin) : Lock := newLock k o

/-- A beacon of a feeder mate, as its bytes: exponent 10, feeder 2, budget 4,000, load 60. -/
def mateBeacon : List Byte :=
  encodeBeacon { decodeBeacon (List.replicate 33 0) with exponent := 10, feeder := 2, budget := 4000, load := 60 }

def inFlight : Frame :=
  { payload := mateBeacon, priority := .normal, crc := 0x1234, notices := 5, claimState := .none, waitAge := 0,
    assembled := 0, present := false }

def transmitting (t : Transmitter) : State := withLine (fun l => { l with tx := t, frame := some inFlight }) live

/-! ## Orders: what each does, once -/

theorem test_point_starts_release :
    let t := after (.point (pointTo 90000 45000 0 0)) live
    t.slot = { tag := 7, console := 230, code := .done } ∧ t.core.axes.az.state = .unbraking
      ∧ t.core.axes.el.state = .unbraking ∧ t.core.fee.claim.state = .waiting ∧ t.core.line.pending = some .urgent := by
  decide +kernel

theorem test_point_below_range_is_clamped :
    (after (.point (pointTo 0 4999 0 0)) live).slot.code = .clamped
      ∧ (after (.point (pointTo 0 5000 0 0)) live).slot.code = .done
      ∧ (after (.point (pointTo 0 4999 0 0)) live).core.axes.el.target = .slew 5000000 := by decide +kernel

theorem test_hold_and_brake_on_a_moving_axis :
    (after (.hold (order [])) moving).core.axes.az.target = .hold 1000
      ∧ (after (.hold (order [])) moving).core.axes.el.releasePending = false
      ∧ (after (.brake (order [])) moving).core.axes.az.state = .stopping
      ∧ (after (.brake (order [])) moving).core.axes.az.engaging = false := by decide +kernel

theorem test_stow_and_unstow :
    let t := after (.stow (order [])) live
    t.core.stow.state = .demanded ∧ t.store.console = true ∧ t.core.axes.el.state = .unbraking
      ∧ (after (.unstow (order [])) t).core.stow.state = .clear
      ∧ (after (.unstow (order [])) stowed).core.stow.state = .releasing := by decide +kernel

theorem test_quiet_and_wake :
    let t := after (.quiet (order [])) stowed
    t.core.stow.park = .parked ∧ t.outputs.encoderPower = false
      ∧ (after (.wake (order [])) t).core.stow.park = .waking
      ∧ (after (.quiet (order [])) live).slot.code = .state := by decide +kernel

theorem test_lock_stops_and_release_frees :
    (after (.lock (order [2])) moving).core.axes.az.state = .stopping
      ∧ (after (.release (order [])) (withList [heldLock .point .system] live)).env.list = []
      ∧ (after (.release (order [])) (withList [heldLock .all .system] live)).slot.code = .state := by decide +kernel

theorem test_heat_mode_is_stored :
    (after (.heat (order [3])) live).core.heat.mode = .force ∧ (after (.heat (order [3])) live).store.heat = .force
      ∧ (after (.heat (order [4])) live).slot.code = .argument := by decide +kernel

theorem test_clear_named_class_only :
    let s := withCond .lineNoise .latched (withCond .azRange .latched live)
    condAt (after (.clear (order [2])) s).core.cond .lineNoise = .clear
      ∧ condAt (after (.clear (order [2])) s).core.cond .azRange = .latched
      ∧ (after (.clear (order [0xC0])) s).slot.code = .argument := by decide +kernel

theorem test_prove_both :
    let t := after (.prove (order [3])) live
    t.slot.code = .done ∧ t.outputs.synthetic = true ∧ t.core.cond.proof.isSome = true
      ∧ (after (.prove (order [1])) t).slot.code = .busy
      ∧ (after (.undefinedOrderKind 230 [7, 1, 15, 14]) live).slot.code = .argument := by decide +kernel

/-! ## Line, peers, axes and the rest -/

theorem test_peer_is_stored :
    (after (.peerBeacon 9 mateBeacon) live).env.peers = [mate 9]
      ∧ (after (.peerBeacon 15 mateBeacon) live).core.line.tx = .silent
      ∧ (after .ownNumberBeacon live).core.line.duplicateTimer = some 0 := by decide +kernel

theorem test_noise_reaches_its_limit :
    condAt (after .stray (withLine (fun l => { l with noise := 15 }) live)).core.cond .lineNoise = .active
      ∧ (after (.discardedFrame { orderFrame [] with unbroken := false })
          (withLine (fun l => { l with noise := 32 }) live)).core.line.noise = 32
      ∧ condAt (after .noiseDecay (withLine (fun l => { l with noise := 1 })
          (withCond .lineNoise .active live))).core.cond .lineNoise = .latched := by decide +kernel

/-- An intact frame is read by its bytes: an order of each length, a beacon at the lowest priority, and a kind that is
neither. -/
theorem test_intact_frame_is_read :
    let hear (p : List Byte) : ResultSlot := (after (.discardedFrame (orderFrame p)) live).slot
    hear [7, 1, 15, 2] = { tag := 7, console := 230, code := .done }
      ∧ hear [7, 4, 0] = { tag := 7, console := 230, code := .argument }
      ∧ hear [7, 4] = { tag := 7, console := 230, code := .argument } ∧ (hear [7]).code = .none ∧ (hear []).code = .none
      ∧ (after (.undefinedOrderKind 230 [7, 1, 15, 2]) live).slot.code = .done
      ∧ (after (.discardedFrame (orderFrame [])) live).core.line.isolationTimer = some 0
      ∧ (after (.discardedFrame (frameOf 0xE1 0x2B mateBeacon)) live).env.peers = [mate 9]
      ∧ after (.discardedFrame (frameOf 0xE1 0x2F [])) live = drive live := by decide +kernel

/-- Station 9 gives way to station 3 and not to itself (the example at one gap). -/
theorem test_arbitration_gives_way :
    let s := withParams (fun p => { p with secA := some { identity with station := 9 } }) (transmitting .arbitrating)
    (after (.lostArbitration 0b010000000110101#15) s).core.line.tx = .gap
      ∧ (after (.lostArbitration 0b010000000110101#15) s).core.line.pending = some .normal
      ∧ (after (.lostArbitration 0b010000010010101#15) s).core.line.tx = .arbitrating := by decide +kernel

/-- A hold-off of 90 lets a transmission begin at 105 bit times and not before (the example of two stations 21). -/
theorem test_hold_off_waits :
    let s := withLine (fun l => { l with tx := .gap, pending := some .normal, holdOff := some 90 }) live
    (after (.transmissionStart 104) s).core.line.tx = .gap ∧ (after (.transmissionStart 105) s).core.line.tx = .arbitrating
      ∧ (after (.transmissionStart 105) s).outputs.lineDriven = true := by decide +kernel

theorem test_sixteenth_abort_rests :
    let s := withLine (fun l => { l with aborts := 15 }) (transmitting .sending)
    let t := after .breakEnd (after .abort s)
    let r := after .restTimerExpiry (withLine (fun l => { l with restTimer := some 1000 }) t)
    t.core.line.tx = .resting ∧ condAt t.core.cond .txFault = .active ∧ r.core.line.tx = .gap
      ∧ r.core.line.holdOff = some 0x34 ∧ r.core.line.aborts = 0 := by decide +kernel

theorem test_beacon_completes :
    let t := after .beaconComplete (withCore (fun k => { k with cond := { k.cond with notices := 7 } }) (transmitting .sending))
    t.core.line.tx = .idle ∧ t.core.line.beaconTimer = some 0 ∧ t.core.cond.notices = 2 := by decide +kernel

theorem test_line_timers :
    (after .duplicateTimerExpiry (withLine (fun l => { l with tx := .silent, duplicateTimer := some 30000 })
        live)).core.line.tx = .gap
      ∧ (after .isolationTimerExpiry (withLine (fun l => { l with isolationTimer := some 10000 })
          live)).core.stow.state = .demanded
      ∧ (after .beaconIntervalDue (withLine (fun l => { l with beaconTimer := some 1024 })
          live)).core.line.pending = some .normal
      ∧ (after .beaconIntervalDue (withLine (fun l => { l with beaconTimer := some 1023 })
          live)).core.line.pending = none := by decide +kernel

theorem test_peer_ages_out :
    (after (.peerStale 14) (withPeers [{ mate 14 with age := 31 }] live)).env.peers
        = [{ mate 14 with age := 31, isFresh := false }]
      ∧ (after (.peerExpiry 14) (withPeers [{ mate 14 with age := 82, isFresh := false }] live)).env.peers = []
      ∧ (after (.peerExpiry 14) (withPeers [{ mate 14 with age := 81 }] live)).env.peers.length = 1 := by decide +kernel

def quietAxis (u : Int) : AxisSample := ⟨.angle u, false, false, false, false⟩

/-- Field lines with nothing active, the encoders at 0 and at `el`. -/
def sampled (el : Int) : Samples :=
  { az := quietAxis 0, el := quietAxis el, ampFault := false, pinEngaged := false, pinRetracted := true,
    zoneClosed := ⟨false, false, false, false⟩, wet := false, keyHigh := ⟨false, false, false, false⟩, stuck := 0 }

/-- The pins are taken 50 ms after the start instant, at the fifth sample (R185, and the example of chapter 11), and the keys
50 ms after their first sample (R72). -/
theorem test_filters_need_50_ms :
    let x : Samples := { sampled 0 with pinEngaged := true }
    let i (n : Nat) : Inputs := (sampleFilters live.env.setup controlMs x)^[n] startInputs
    let pins (n : Nat) := (filterReady pinFilterMs (i n).pinEngaged, filterReady pinFilterMs (i n).pinRetracted)
    pins 4 = (false, false) ∧ pins 5 = (true, true)
      ∧ filterReady pinFilterMs (fourGet (i 5).keys 0) = false
      ∧ filterReady pinFilterMs (fourGet (i 6).keys 0) = true := by decide

/-- With a reading of 45 degrees. -/
def reading45 : State := withAxis .el (fun r => { r with reading := some 45000000, answered := some 45000000 }) live

/-- A read at the jump limit of 200 mdeg is taken, one beyond it is rejected. -/
theorem test_jump_limit :
    (after (.controlInterval (sampled 45200000)) reading45).core.axes.el.reading = some 45200000
      ∧ (after (.controlInterval (sampled 45200001)) reading45).core.axes.el.state = .fault
      ∧ (after (.controlInterval (sampled 45200001)) reading45).core.axes.el.reading = some 45000000
      ∧ (after (.controlInterval (sampled 45200000)) reading45).env.now = 10 := by decide +kernel

theorem test_brake_feedback :
    (after (.brakeReleasedFeedback .az) (withAxis .az (fun r => { r with state := .unbraking, brakeTimer := some 1990 })
        live)).core.axes.az.state = .active
      ∧ (after (.brakeTimeout .az) (withAxis .az (fun r => { r with state := .unbraking, brakeTimer := some 2000 })
          live)).core.axes.az.state = .fault
      ∧ (after (.brakeEngagedFeedback .el) moving).core.axes.el.state = .unbraking := by decide +kernel

theorem test_axis_faults :
    condAt (after (.followTimeout .el) (withAxis .el (fun r => { r with state := .active, followTimer := 500 })
        live)).core.cond (.follow .el) = .latched
      ∧ (after (.brakeMismatch .az) (withAxis .az (fun r => { r with mismatchTimer := 500 }) live)).core.axes.az.state = .fault
      ∧ (after (.brakeMismatch .az) (withAxis .az (fun r => { r with mismatchTimer := 490 }) live)).core.axes.az.state = .braked
      ∧ condAt (after (.limitSwitch .el true) live).core.cond (.limit .el) = .active := by decide +kernel

/-- A fault of one axis clears the other's release pending mark in every stow state. -/
theorem test_fault_ends_pending_release :
    (after (.limitSwitch .az true) (stowIn .releasing moving)).core.axes.el.releasePending = false
      ∧ (after (.limitSwitch .az true) (stowIn .releasing moving)).core.axes.el.target = .none := by decide +kernel

/-- During a feedback proof a brake level is seen at an even sample since its timer started, not at one before it. -/
theorem test_brake_needs_a_counted_sample :
    let u (seen : Bool) : State :=
      withSampled (fun n => { n with azReleased := true })
        (withAxis .az (fun r => { r with state := .unbraking, brakeTimer := some 10, brakeSeen := seen }) live)
    dueAxis (u false).env (u false).core .az = [] ∧ dueAxis (u true).env (u true).core .az = [.brakeReleasedFeedback .az] := by
  decide +kernel

theorem test_amplifier_fault :
    (after .ampFaultInput moving).core.axes.az.state = .fault ∧ (after .ampFaultInput live).core.axes.az.state = .braked
      ∧ (after .ampFaultInput (parkIn .parked moving)).core.axes.az.state = .active := by decide +kernel

theorem test_axis_timers :
    (after (.idleBrakeExpiry .az) (withAxis .az (fun r => { r with idleTimer := some 120000, v := 0 })
        moving)).core.axes.az.engaging = true
      ∧ (after (.encoderRecovered .az) (withAxis .az
          (fun r => { r with state := .fault, encoderFault := true, recovery := 10, answered := some 77 })
          live)).core.axes.az.reading = some 77
      ∧ (after .onSourceSet (withCore (fun k => { k with axes := { k.axes with onSourceTimer := 1000 } })
          live)).core.axes.onSource = true := by decide +kernel

/-- Pinning with the stow angle reached: the pin input taken as in makes the dish STOWED, and the timer's end FAILED. -/
def pinning : State :=
  let f (level : Bool) (t : Bool) : Filter := { sampled := true, level := level, held := 50, taken := some t }
  byConsole (withStow (fun u => { u with state := .pinning, pin := .drivenOut, pinTimer := some 20000 })
    (withSampled (fun n => { n with pinEngaged := f true false, pinRetracted := f false false })
      (withAxis .el (fun r => { r with x := 90000000, reading := some 90000000 }) live)))

theorem test_pin :
    (after (.pinInputTaken .engaged) pinning).core.stow.state = .stowed
      ∧ (after .pinTimeout pinning).core.stow.state = .failed ∧ (after .pinTimeout pinning).outputs.pin = .off
      ∧ (after (.pinInputTaken .retracted) (stowIn .releasing (withSampled
          (fun n => { n with pinEngaged := ⟨true, false, 50, some false⟩, pinRetracted := ⟨true, true, 50, none⟩ })
          pinning))).core.stow.state = .clear := by decide +kernel

theorem test_stow_timers :
    (after .releaseHoldExpiry (withStow (fun u => { u with holdTimer := some 1200000 }) live)).core.stow.holdTimer = none
      ∧ (after .releaseHoldExpiry (withStow (fun u => { u with holdTimer := some 1199999 }) live)).core.stow.holdTimer
          = some 1199999
      ∧ (after .wakeSettleEnd (withStow (fun u => { u with park := .waking, settleTimer := some 3000 })
          stowed)).core.stow.park = .run := by decide +kernel

theorem test_wind_events :
    (after .anemometerPulse (withWind (fun w => { w with binClock := some 0, live := 1023 }) live)).env.wind.live = 1023
      ∧ condAt (after (.stallExpiry 0) (withPeers [{ mate 16 with relWind := true, vote := .calm, gust := 50 }]
          (withWind (fun w => { w with binClock := some 250, stall := 719 }) live))).core.cond .anemoStall = .active
      ∧ (after (.blockEnd 0) (withWind (fun w => { w with binClock := some 250, blockBins := 59, blockSum := 6000 })
          live)).env.wind.mean = 100
      ∧ (after .graceExpiry (withWind (fun w => { w with grace := some 5048, usable := false })
          live)).core.stow.causes.blind = true := by decide +kernel

theorem test_wind_proof_verdict :
    let s := withWind (fun w => { w with binClock := some 250, proof := some (shadows 0 7) })
      (withParams (fun p => { p with secC := gusty }) live)
    (after (.windProofVerdict 0) s).env.wind.proof = none
      ∧ condAt (after (.windProofVerdict 0) s).core.cond .anemoProof = .clear
      ∧ (after (.windProofVerdict 10) s).env.wind.proof.isSome = true := by decide +kernel

/-- The claim of station 7 not yet settled: it settles 100 ms after its announcement, and not a ms earlier. -/
def waiting (now : Nat) : State :=
  let s := withClaim (fun c => { c with settled := false }) (withPeers [] station7)
  withCore (fun k => { k with fee := { k.fee with headroom := 2240 } }) { s with env := { s.env with now := now } }

theorem test_claim_admission :
    (after .settleIntervalEnd (waiting 100)).core.fee.claim.state = .active
      ∧ (after .settleIntervalEnd (waiting 99)).core.fee.claim.state = .waiting
      ∧ (after .fillTimeEnd (withCore (fun k => { k with fee := { k.fee with fill := some 5048 } })
          (waiting 100))).core.fee.fill = none
      ∧ (after .stowWaitLimit (withClaim (fun c => { c with kind := .stow, waitAge := 50 })
          (waiting 99))).core.fee.claim.forced = true := by decide +kernel

theorem test_key_and_write :
    let s := withSampled (fun n => { n with keys := ⟨⟨true, true, 50, none⟩, n.keys.z2, n.keys.z3, n.keys.z4⟩ }) live
    let t := after (.keyTaken 0) s
    t.env.list = [heldLock .drive (.key 0)] ∧ t.store.writing = some (.key 0, 0)
      ∧ (after .recordWriteEnd { t with store := { t.store with writing := some (.key 0, 2) } }).store.marks = []
      ∧ (after .recordWriteEnd { t with store := { t.store with writing := some (.key 0, 1) } }).store.marks.length = 1 := by
  decide +kernel

theorem test_poll_and_sensors :
    let a : PollAnswers := { zone := ⟨some (-550), some 850, some 851, none⟩, ambient := some (-40) }
    let t := after (.pollRound a) live
    fourMap (fun z => z.reading) t.core.heat.zones = ⟨some (-550), some 850, none, none⟩
      ∧ fourMap (fun z => z.fails) t.core.heat.zones = ⟨0, 0, 1, 1⟩ ∧ t.core.heat.ambient = some (-40)
      ∧ condAt (after (.sensorFault (.zone 1)) (withZone 1 (fun z => { z with fails := 3 }) live)).core.cond (.zoneSensor 1)
          = .active := by decide +kernel

theorem test_heater_events :
    (after .wetChange (withSampled (fun n => { n with wetLevel := true, wetHeld := 2000 }) live)).core.heat.wet = true
      ∧ (after .wetMemoryExpiry (withCore (fun k => { k with heat := { k.heat with memory := some 3600000 } })
          live)).core.heat.memory = none
      ∧ (after (.cycleStart 2) (withZone 2 (fun z => { z with output := 150, phase := 20000 }) live)).outputs.zones
          = ⟨false, false, true, false⟩
      ∧ (after (.onTimeEnd 2) (withZone 2 (fun z => { z with cycle := 150, on := true, phase := 3000 })
          live)).outputs.zones.z3 = false := by decide +kernel

/-- A cycle of 20 s that is met 7 ms late keeps the 7 ms. -/
theorem test_cycle_keeps_its_period :
    (fourGet (after (.cycleStart 2) (withZone 2 (fun z => { z with phase := 20007 }) live)).core.heat.zones 2).phase = 7
      ∧ (fourGet (after (.cycleStart 2) (withZone 2 (fun z => { z with untilFirst := some 0, phase := 3 })
          live)).core.heat.zones 2).phase = 3 := by decide +kernel

theorem test_feedback_verdicts :
    condAt (after (.zoneFeedbackTimeout 3) (withZone 3 (fun z => { z with mismatch := 500 }) live)).core.cond
        (.zoneFeedback 3) = .active
      ∧ (after .feedbackProofVerdict (withCore (fun k => { k with cond := { k.cond with
          proof := some { startFeedbackProof with sample := 20 } } }) live)).core.cond.proof = none := by decide +kernel

theorem test_resets :
    (after (.resetAsserted 1 ⟨false, false⟩ false) moving).outputs = safeOutputs
      ∧ (after (.resetAsserted 0 ⟨false, false⟩ false) moving).inReset = false
      ∧ (after (.supplyFailure 201 true ⟨false, false⟩ false) live).store.valid = false
      ∧ (after (.supplyFailure 200 false ⟨false, false⟩ false) live).store.valid = true
      ∧ (after (.resetAsserted 1 ⟨false, false⟩ true) live).store.valid = false
      ∧ (after (.resetAsserted 1 ⟨false, false⟩ true)
          { live with store := { live.store with emptying := false } }).store.valid = true := by decide +kernel

/-- A power-on finds no good store: the cold record alone; a warm start after the example's reset rebuilds the list. -/
theorem test_start_instant :
    (after .startInstant State.reset).env.list = [heldLock .point .system]
      ∧ (after .startInstant { live with inReset := true, store := cutStore }).env.list = rebuildList cutStore
      ∧ (after .startInstant { live with inReset := true, store := { cutStore with heat := .force } }).core.heat.mode = .force
      := by decide +kernel

/-! A configuration image: its four sections with the parameter tables' defaults. -/

def words (l : List Nat) : List Byte := l.flatMap fun n => bytes16 (BitVec.ofNat 16 n)
def triple (i : Int) : List Byte := bytes24 (BitVec.ofInt 24 i)

def bodyA : List Byte :=
  [1, 15, 2, 3, 2, 16, 17, 0, 0, 0, 0, 1, 20, 0, 0, 0, 0, 0, 0, 0, 0x21, 0x20, 0x40, 0x30, 2, 10, 0, 0, 0, 0]

def groupB : List Byte := words [2000, 1000, 1000, 500] ++ [50] ++ words [4000, 500, 200] ++ triple 0

def bodyB : List Byte :=
  [2] ++ triple (-270000) ++ triple 270000 ++ triple 5000 ++ groupB ++ groupB ++ words [10, 100, 200] ++ triple 30000
    ++ words [120] ++ [20] ++ words [3000] ++ List.replicate 34 0

def bodyC : List Byte :=
  [3] ++ words [250] ++ [0] ++ words [150, 200, 150, 120, 100, 120] ++ [2, 20]
    ++ words [180, 50, 4000, 200, 300, 500, 400, 250, 200, 150, 120, 30, 100] ++ [5, 10] ++ List.replicate 16 0

def bodyD : List Byte :=
  [4] ++ words [300, 300, 300, 300] ++ [25] ++ words [30, 5, 10] ++ [60, 20, 0, 0, 0, 0, 0, 0x3D]
    ++ List.replicate 22 0

theorem crc_in_two (n : Nat) (l : List Byte) (c : BitVec 16) :
    l.foldl crcByte c = (l.drop n).foldl crcByte ((l.take n).foldl crcByte c) := by
  rw [← List.foldl_append, List.take_append_drop]

theorem test_crc_of_section_a : crc16 bodyA = 0x3BC8#16 := by decide +kernel

theorem test_crc_of_section_b : crc16 bodyB = 0x1EAD#16 := by
  unfold crc16
  rw [crc_in_two 24, show (bodyB.take 24).foldl crcByte 0xFFFF#16 = 65394#16 by decide +kernel,
    crc_in_two 24, show ((bodyB.drop 24).take 24).foldl crcByte 65394#16 = 62129#16 by decide +kernel,
    crc_in_two 24, show (((bodyB.drop 24).drop 24).take 24).foldl crcByte 62129#16 = 12871#16 by decide +kernel]
  decide +kernel

theorem test_crc_of_section_c : crc16 bodyC = 0x8EE2#16 := by
  unfold crc16
  rw [crc_in_two 32, show (bodyC.take 32).foldl crcByte 0xFFFF#16 = 34452#16 by decide +kernel]
  decide +kernel

theorem test_crc_of_section_d : crc16 bodyD = 0xDA72#16 := by
  unfold crc16
  rw [crc_in_two 24, show (bodyD.take 24).foldl crcByte 0xFFFF#16 = 13638#16 by decide +kernel]
  decide +kernel

def imageA : List Byte := bodyA ++ [0x3B, 0xC8]
def imageB : List Byte := bodyB ++ [0x1E, 0xAD]
def imageC : List Byte := bodyC ++ [0x8E, 0xE2]
def imageD : List Byte := bodyD ++ [0xDA, 0x72]

theorem image_a_intact : sectionIntact .a imageA = true := by
  unfold sectionIntact
  rw [show imageA.take (sectionSize .a - 2) = bodyA by decide +kernel, test_crc_of_section_a]
  decide +kernel

theorem image_b_intact : sectionIntact .b imageB = true := by
  unfold sectionIntact
  rw [show imageB.take (sectionSize .b - 2) = bodyB by decide +kernel, test_crc_of_section_b]
  decide +kernel

theorem image_c_intact : sectionIntact .c imageC = true := by
  unfold sectionIntact
  rw [show imageC.take (sectionSize .c - 2) = bodyC by decide +kernel, test_crc_of_section_c]
  decide +kernel

theorem image_d_intact : sectionIntact .d imageD = true := by
  unfold sectionIntact
  rw [show imageD.take (sectionSize .d - 2) = bodyD by decide +kernel, test_crc_of_section_d]
  decide +kernel

/-- The layouts of 12.5 read back the defaults of the parameter tables. -/
theorem test_image_a : parseA imageA = some identity := by
  unfold parseA
  rw [image_a_intact]
  decide +kernel

theorem test_image_b : parseB imageB = some defaultB := by
  unfold parseB
  simp only [image_b_intact]
  decide +kernel

theorem test_image_c : parseC imageC = some defaultC := by
  unfold parseC
  simp only [image_c_intact]
  decide +kernel

theorem test_image_d : parseD imageD = some defaultD := by
  unfold parseD
  simp only [image_d_intact]
  decide +kernel

def loading (x : SectionId) : State :=
  withParams (fun p => { p with loading := some x, configured := false, secA := if x = .a then none else p.secA }) live

theorem test_section_loaded :
    (after (.sectionLoaded imageA) (loading .a)).env.setup.secA = some identity
      ∧ (after (.sectionLoaded (imageB.take 95)) (loading .b)).env.setup.statusB = .failed
      ∧ (after (.sectionLoaded (imageB.take 95)) (loading .b)).env.list = [heldLock .all .system] := by decide +kernel

/-- Everything read, the pin inputs taken: configuration may complete. -/
def ready : State :=
  withSampled (fun n => { n with pinEngaged := ⟨true, false, 50, some false⟩, pinRetracted := ⟨true, true, 50, some true⟩ })
    (withParams (fun p => { p with configured := false }) live)

theorem test_configuration_completes :
    (after .configurationComplete ready).env.setup.configured = true
      ∧ (after .configurationComplete ready).core.line.isolationTimer = some 0
      ∧ (after .configurationComplete ready).core.stow.state = .clear := by decide +kernel

/-! ## Witnesses: a state and operands that meet the hypotheses of each statement, clause by clause -/

theorem witness_StepRunsFrontCommand :
    ∃ c rest, ({ live with pending := [.stray, .abort] } : State).pending = c :: rest := ⟨_, _, rfl⟩

def atTime (n : Nat) (s : State) : State := { s with env := { s.env with now := n } }

theorem witness_IdleStationRunsItsTimers :
    (State.reset.pending = [] ∧ State.reset.inReset = true)
      ∧ (Live (withLine (fun l => { l with noiseClock := 1000 }) live)
          ∧ dueCommands (withLine (fun l => { l with noiseClock := 1000 }) live) = [.noiseDecay])
      ∧ (dueCommands (atTime 8 live) = [] ∧ (atTime 8 live).env.now % 10 < 9 ∧ (atTime 8 live).pending = [])
      ∧ (dueCommands (atTime 9 live) = [] ∧ ¬(atTime 9 live).env.now % 10 < 9) := by
  unfold Live; decide +kernel

def lockedState : State :=
  { withPeers [mate 9, mate 16] (withList [heldLock .drive (.key 0), heldLock .area (.console 230)] (drive live)) with
    pending := [.point (pointTo 90000 45000 0 0)] }

theorem witness_EveryStepKeepsProtection :
    ∃ t, Protected lockedState ∧ blocking lockedState.env.list = true ∧ step lockedState = .next t :=
  let ⟨t, h⟩ := Laws.step_next lockedState
  ⟨t, by unfold Protected AtRest; decide +kernel, by decide +kernel, h⟩

theorem witness_EveryStepKeepsSummary : ∃ t, SummaryRight lockedState ∧ step lockedState = .next t :=
  let ⟨t, h⟩ := Laws.step_next lockedState
  ⟨t, by unfold SummaryRight; decide +kernel, h⟩

theorem witness_EveryStepKeepsPeerTable : ∃ t, TableRight lockedState ∧ step lockedState = .next t :=
  let ⟨t, h⟩ := Laws.step_next lockedState
  ⟨t, ⟨by decide +kernel, ⟨by decide +kernel, by decide +kernel, trivial⟩, by decide +kernel,
    fun a ha => by cases ha; decide +kernel, by decide +kernel, by decide +kernel⟩, h⟩

/-- A running station with a removal unwritten, a record stored and one marked; and one in reset. -/
theorem witness_EveryStepKeepsLockIdentities :
    let s : State :=
      { lockedState with
        store :=
          { emptyStore with
            records := [heldLock .drive (.key 0), heldLock .area (.console 231)]
            marks := [⟨.area, .console 230⟩], queue := [.console .area 231] } }
    (∃ t, ListRight s ∧ StoreRight s ∧ step s = .next t) ∧ ListRight State.reset ∧ StoreRight State.reset := by
  refine ⟨let ⟨t, h⟩ := Laws.step_next _; ⟨t, ?_, ⟨?_, fun _ => ⟨?_, ?_, ?_, ?_, ?_⟩, fun h => ?_⟩, h⟩, ?_, ?_, fun h => ?_,
    fun _ => ?_⟩
  all_goals first
    | (unfold ListRight; decide +kernel)
    | (unfold StoreReady; decide +kernel)
    | (intro _ h; cases h; done)
    | (exact absurd h (by decide))
    | decide +kernel

theorem witness_EveryStepKeepsOutputs :
    ∃ t, OutputsRight (drive live) ∧ step (drive live) = .next t :=
  let ⟨t, h⟩ := Laws.step_next (drive live)
  ⟨t, rfl, h⟩

/-- A beacon's interval coming due is named for none of the records and moves nothing; a pulse, a poll round and a key are
each named for what they change. -/
theorem witness_FrameOfTheRecords :
    ∃ t, exec .beaconIntervalDue live = .next t
      ∧ [changesTime .beaconIntervalDue, changesList .beaconIntervalDue, changesPeers .beaconIntervalDue,
          changesSetup .beaconIntervalDue, changesWind .beaconIntervalDue, changesInputs .beaconIntervalDue,
          changesSlot .beaconIntervalDue, changesStore .beaconIntervalDue] = List.replicate 8 false
      ∧ changesWind .anemometerPulse = true ∧ changesList (.keyTaken 0) = true :=
  ⟨_, rfl, by decide, by decide, by decide⟩

theorem witness_FrameOfTheBlocks :
    ∃ t, exec .beaconIntervalDue live = .next t
      ∧ [movesAxes .beaconIntervalDue, changesCauses .beaconIntervalDue, changesHeatMode .beaconIntervalDue,
          readsSensors .beaconIntervalDue, changesProof .beaconIntervalDue, changesMasks .beaconIntervalDue,
          changesNoise .beaconIntervalDue, changesStowState .beaconIntervalDue, changesClaim .beaconIntervalDue,
          changesConds .beaconIntervalDue, changesLineTimers .beaconIntervalDue] = List.replicate 11 false
      ∧ movesAxes .ampFaultInput = true ∧ changesNoise .stray = true
      ∧ rowOf (.discardedFrame (orderFrame [7, 1, 15, 2])) = .hold (order [])
      ∧ rowOf (.discardedFrame (orderFrame [7])) = .undefinedOrderKind 230 [7] :=
  ⟨_, rfl, by decide, by decide, by decide, by decide +kernel, by decide +kernel⟩

theorem witness_BrakingSpeedIsFloorOfRoot :
    (0 ≤ (2000000 : Int) ∧ 2 * (2000000 : Int) * absInt (-131) < 2 ^ 64)
      ∧ (0 ≤ (1 : Int) ∧ 2 * (1 : Int) * absInt (2 ^ 63 - 1) < 2 ^ 64)
      ∧ (0 ≤ (0 : Int) ∧ 2 * (0 : Int) * absInt 0 < 2 ^ 64) := by decide +kernel

theorem witness_AzimuthTurnIsNearest :
    ((-270000000 : Int) ≤ 270000000 ∧ (azimuthTurn (-270000000) 270000000 0 180000000).clamped = false
        ∧ ∃ c ∈ [(180000000 : Int) - 360000000, 180000000, 180000000 + 360000000], -270000000 ≤ c ∧ c ≤ 270000000)
      ∧ ((5 : Int) ≤ 5 ∧ (azimuthTurn 5 5 0 200000000).clamped = true)
      ∧ (azimuthTurn (-270000000) 270000000 0 180000000 = ⟨180000000, false⟩
        ∧ azimuthTurn (-270000000) 270000000 10000000 190000000 = ⟨-170000000, false⟩
        ∧ azimuthTurn (-10) 10 1 180000000 = ⟨10, true⟩ ∧ azimuthTurn (-10) 10 (-1) 180000000 = ⟨-10, true⟩
        ∧ azimuthTurn (-10) 10 0 180000000 = ⟨10, true⟩) := by decide +kernel

theorem witness_ProfileStaysInBounds :
    (softLow live.env .az ≤ softHigh live.env .az ∧ (getAxis moving.core .az).state = .active)
      ∧ (softLow live.env .el ≤ softHigh live.env .el
          ∧ (getAxis (withAxis .el (fun r => { r with engaging := false, v := 7 }) moving).core .el).state = .stopping
          ∧ (getAxis (withAxis .el (fun r => { r with engaging := false, v := 7 }) moving).core .el).engaging = false) := by
  decide +kernel

theorem witness_HeaterShareIsBounded :
    (station7.core.fee.ownDemand ≤ 65535 ∧ hasBudget station7.env = true)
      ∧ { station7.core.fee with ownDemand := 65535 }.ownDemand ≤ 65535 ∧ live.core.heat.demand = 0 := by decide +kernel

/-! ### Orders -/

def unconfigured : State := withParams (fun p => { p with configured := false }) live

theorem witness_IgnoredOrderDoesNothing :
    let o : Order := { order [] with scope := 2, number := 4 }
    (orderCarried (.hold o) = some o ∧ orderRow (.hold o) = true ∧ Live live ∧ orderTaken o live = false
        ∧ receiving live.env = true ∧ tooLong o = false ∧ isConsole o.console = true
        ∧ live.env.setup.configured = true)
      ∧ (orderCarried (.lock (order [1])) = some (order [1]) ∧ Live unconfigured
          ∧ orderTaken (order [1]) unconfigured = false)
      ∧ (let s := withParams (fun p => { p with secA := none }) live
         Live s ∧ receiving s.env = false ∧ orderTaken (order []) s = false)
      ∧ (let o : Order := { order [] with console := 223 }
         isConsole o.console = false ∧ tooLong o = false ∧ orderTaken o live = false)
      ∧ (let o : Order := order (List.replicate 11 1)
         tooLong o = true ∧ tooLong (order (List.replicate 10 1)) = false ∧ orderTaken o live = false
           ∧ driving live.core.line = false ∧ driving (transmitting .sending).core.line = true
           ∧ orderTaken o (transmitting .sending) = false) := by
  unfold Live; decide +kernel

theorem witness_TakenOrderAnswers :
    (orderCarried (.hold (order [])) = some (order []) ∧ orderRow (.hold (order [])) = true ∧ Taken (order []) live
        ∧ stationScope (order []) = true)
      ∧ Taken { order [] with scope := 4, number := 0 } live := by
  unfold Taken Live; decide +kernel

theorem witness_MalformedOrderIsArgument :
    Taken (order []) live ∧ Taken (order (List.replicate 9 0)) live
      ∧ [Instr.undefinedOrderKind 230 [7, 1, 15, 14], .hold (order [0]), .lock (order [6]), .clear (order [0xC0]),
          .point (order (List.replicate 9 0)), .prove (order [0]), .heat (order [])].map
          (fun c => (orderRow c, formGood c)) = List.replicate 7 (true, false) := by
  unfold Taken Live; decide +kernel

/-- The arguments of `pointTo`. -/
def pointArguments (az el azRate elRate : Int) : PointArgs :=
  { azimuth := az, elevation := el, azRate := azRate, elRate := elRate }

theorem witness_PointOrderTests :
    pointArgs (pointTo 90000 45000 0 0).args = some (pointArguments 90000 45000 0 0)
      ∧ pointArgs (pointTo 360000 45000 100 (-101)).args = some (pointArguments 360000 45000 100 (-101))
      ∧ (∀ s ∈ [withList [heldLock .point .system] live, stowIn .pinning live, inState .az .fault live, live],
          Taken (pointTo 90000 45000 0 0) s)
      ∧ [after (.point (pointTo 90000 45000 0 0)) (withList [heldLock .point .system] live),
          after (.point (pointTo 90000 45000 0 0)) (stowIn .pinning live),
          after (.point (pointTo 90000 45000 0 0)) (inState .az .fault live),
          after (.point (pointTo 360000 45000 0 0)) live, after (.point (pointTo 0 45000 0 (-101))) live,
          after (.point (pointTo 359999 4999 100 100)) live, after (.point (pointTo 0 90000 0 0)) live].map
          (fun t => t.slot.code) = [.locked, .stowing, .fault, .argument, .argument, .clamped, .done] := by
  unfold Taken Live; decide +kernel

theorem witness_PointGivesTargets :
    Taken (pointTo 90000 45000 0 0) moving
      ∧ pointArgs (pointTo 90000 45000 0 0).args = some (pointArguments 90000 45000 0 0)
      ∧ pointRefusal moving.env (pointArguments 90000 45000 0 0)
          (hearOrder (pointTo 90000 45000 0 0) moving).core = none
      ∧ moving.env.inputs.ampFault = false := by
  unfold Taken Live; decide +kernel

/-- The four cases of the claim under an accepted POINT: raised, resized, kept running, withdrawn. -/
theorem witness_PointGivesTargets_claim :
    let o := pointTo 90000 45000 0 0
    let k (s : State) (o : Order) (a : PointArgs) : Core :=
      giveTarget s.env .el (pointTarget a s.env.now (pointElevation s.env a).p a.elRate)
        (giveTarget s.env .az
          (pointTarget a s.env.now (pointAzimuth s.env a (hearOrder o s).core).p a.azRate) (hearOrder o s).core)
    let a := pointArguments 90000 45000 0 0
    let w := withClaim (fun c => { c with kind := .slew, state := .waiting, waitAge := 9 }) live
    let r := withClaim (fun c => { c with kind := .slew, state := .active }) live
    let n := withClaim (fun c => { c with kind := .slew, state := .waiting })
      (withAxis .el (fun r => { r with x := 5000000, reading := some 5000000 }) live)
    (∀ s ∈ [live, w, r, n], Taken o s ∧ hasBudget s.env = true ∧ s.env.inputs.ampFault = false)
      ∧ (∀ s ∈ [live, w, r], pointRefusal s.env a (hearOrder o s).core = none
          ∧ mustAccelerate s.env (k s o a) .az = true)
      ∧ (live.core.fee.claim.state = .none ∧ w.core.fee.claim.state = .waiting ∧ r.core.fee.claim.state = .active)
      ∧ pointRefusal n.env (pointArguments 0 5000 0 0) (hearOrder (pointTo 0 5000 0 0) n).core = none
      ∧ mustAccelerate n.env (k n (pointTo 0 5000 0 0) (pointArguments 0 5000 0 0)) .az = false
      ∧ mustAccelerate n.env (k n (pointTo 0 5000 0 0) (pointArguments 0 5000 0 0)) .el = false := by
  unfold Taken Live; decide +kernel

theorem witness_HoldOrderHoldsAxes :
    Taken (order []) moving ∧ (order []).args = [] ∧ (hearOrder (order []) moving).core.stow.state = .clear
      ∧ Taken (order []) stowed ∧ ¬(hearOrder (order []) stowed).core.stow.state = .clear
      ∧ Taken (order []) (inState .az .unbraking live)
      ∧ (getAxis (hearOrder (order []) (inState .az .unbraking live)).core .az).state = .unbraking := by
  unfold Taken Live; decide +kernel

theorem witness_BrakeOrderStopsAxes :
    (Taken (order []) live ∧ atRest (hearOrder (order []) live).core.axes.az = true
        ∧ atRest (hearOrder (order []) live).core.axes.el = true)
      ∧ Taken (order []) moving ∧ atRest (hearOrder (order []) moving).core.axes.az = false ∧ stowUnderWay (hearOrder (order []) moving).core.stow.state = false
      ∧ isMoving (getAxis (hearOrder (order []) moving).core .az) = true
      ∧ isMoving (getAxis (hearOrder (order []) moving).core .el) = false
      ∧ (getAxis (hearOrder (order []) moving).core .el).releasePending = true
      ∧ Taken (order []) (stowIn .releasing moving)
      ∧ stowUnderWay (hearOrder (order []) (stowIn .releasing moving)).core.stow.state = true := by
  unfold Taken Live; decide +kernel

theorem witness_StowOrderAddsConsole :
    (∀ s ∈ [stowed, stowIn .releasing live, withList [heldLock .drive (.key 0)] live, inState .el .fault live, live],
        Taken (order []) s)
      ∧ stowed.core.stow.causes.console = true ∧ live.core.stow.causes.console = false
      ∧ [stowed, stowIn .releasing live, withList [heldLock .drive (.key 0)] live, inState .el .fault live, live].map
          (fun s => (after (.stow (order [])) s).core.stow.state) = [.stowed, .pinning, .blocked, .failed, .demanded] := by
  unfold Taken Live; decide +kernel

def windToo : State := withStow (fun u => { u with causes := { u.causes with windLocal := true } }) stowed
def holding : State := withStow (fun u => { u with causes := noCauses, holdTimer := some 0 }) stowed

theorem witness_UnstowOrderTests :
    (∀ s ∈ [live, windToo, holding, withList [heldLock .all .system] stowed, inState .az .fault stowed, stowed,
          stowIn .demanded stowed, stowIn .pinning stowed, parkIn .parked stowed, stowIn .releasing stowed,
          stowIn .failed stowed, stowIn .blocked stowed],
        Taken (order []) s ∧ s.env.inputs.ampFault = false)
      ∧ [live, windToo, holding, withList [heldLock .all .system] stowed, inState .az .fault stowed, stowed,
          stowIn .demanded stowed, stowIn .pinning stowed, parkIn .parked stowed, stowIn .releasing stowed,
          stowIn .failed stowed, stowIn .blocked stowed].map
          (fun s => ((after (.unstow (order [])) s).slot.code, (after (.unstow (order [])) s).core.stow.state))
        = [(.done, .clear), (.cause, .stowed), (.holding, .stowed), (.locked, .stowed), (.fault, .stowed),
            (.done, .releasing), (.done, .clear), (.done, .releasing), (.done, .stowed), (.done, .releasing),
            (.done, .failed), (.done, .blocked)] := by
  unfold Taken Live; decide +kernel

theorem witness_QuietAndWakeOrders :
    Taken (order []) stowed ∧ posture (hearOrder (order []) stowed).env (hearOrder (order []) stowed).core = .stowed
      ∧ (hearOrder (order []) stowed).core.axes.az.state = .braked
      ∧ (hearOrder (order []) stowed).core.axes.el.state = .braked
      ∧ Taken (order []) live ∧ ¬posture (hearOrder (order []) live).env (hearOrder (order []) live).core = .stowed
      ∧ Taken (order []) (parkIn .parked stowed)
      ∧ (hearOrder (order []) (parkIn .parked stowed)).core.stow.park = .parked := by
  unfold Taken Live; decide +kernel

def elevenWaiting : State :=
  { live with
    store :=
      { live.store with
        writing := some (.system, 0)
        queue := [.console .point 224, .console .point 225, .console .point 226, .console .point 227, .console .point 228,
          .console .point 229, .console .heat 224, .console .heat 225, .console .heat 226, .console .heat 227,
          .console .heat 228] } }

/-- Twelve console writes of which the list holds none: the list is full of unwritten removals at seven and more. -/
def sixAndFull : State :=
  withList
    [newLock .point (.console 224), newLock .point (.console 225), newLock .point (.console 226),
      newLock .point (.console 227), newLock .point (.console 228), newLock .point (.console 229)]
    { live with
      store :=
        { live.store with
          writing := some (.system, 0)
          queue := [.console .point 224, .console .point 225, .console .point 226, .console .point 227,
            .console .point 228, .console .point 229] ++ List.replicate 5 (.console .point 224) } }

theorem witness_LockOrderCases :
    Taken (order [2]) live ∧ lockKindArg (order [2]).args = some .drive
      ∧ (∃ l, findIdent (.console .drive 230) [heldLock .drive (.console 230)] = some l)
      ∧ (findIdent (.console .drive 230) live.env.list = none ∧ consoleCount live.env.list live.store < 7
          ∧ queueRefuses [.console .drive 230] live.store = false)
      ∧ (Taken (order [2]) elevenWaiting ∧ findIdent (.console .drive 230) elevenWaiting.env.list = none
          ∧ 7 ≤ consoleCount elevenWaiting.env.list elevenWaiting.store)
      ∧ (Taken (order [2]) sixAndFull ∧ findIdent (.console .drive 230) sixAndFull.env.list = none
          ∧ consoleCount sixAndFull.env.list sixAndFull.store < 7
          ∧ queueRefuses [.console .drive 230] sixAndFull.store = true) := by
  refine ⟨by unfold Taken Live; decide +kernel, by decide +kernel, ⟨_, rfl⟩, by decide +kernel, ?_, ?_⟩ <;>
    (unfold Taken Live; decide +kernel)

theorem witness_BlockingLockStopsTheDish :
    Taken (order [5]) moving ∧ lockKindArg (order [5]).args = some .all
      ∧ findIdent (.console .all 230) moving.env.list = none ∧ consoleCount moving.env.list moving.store < 7
      ∧ queueRefuses [.console .all 230] moving.store = false
      ∧ isMoving (getAxis (hearOrder (order [5]) moving).core .az) = true
      ∧ isMoving (getAxis (hearOrder (order [5]) moving).core .el) = false
      ∧ Taken (order [5]) (stowIn .moving moving) ∧ stowUnderWay (stowIn .moving moving).core.stow.state = true := by
  unfold Taken Live; decide +kernel

def driveOf230 : State := withList [heldLock .drive (.console 230)] live

theorem witness_UnlockAndReleaseOrders :
    Taken (order [2]) live ∧ lockKindArg (order [2]).args = some .drive ∧ unlockTargets .drive 230 live.env.list = []
      ∧ (Taken (order [2]) driveOf230 ∧ unlockTargets .drive 230 driveOf230.env.list = [heldLock .drive (.console 230)]
          ∧ queueRefuses ((unlockTargets .drive 230 driveOf230.env.list).map lockIdent) driveOf230.store = false)
      ∧ queueRefuses ((unlockTargets .drive 230 driveOf230.env.list).map lockIdent) elevenWaiting.store = true
      ∧ Taken (order [2]) (withList driveOf230.env.list elevenWaiting)
      ∧ (Taken (order []) live ∧ (order []).args = [] ∧ systemRecord live.env.list = none)
      ∧ systemRecord [heldLock .all .system] = some (heldLock .all .system)
      ∧ systemRecord [heldLock .point .system] = some (heldLock .point .system)
      ∧ Taken (order []) (withList [heldLock .point .system] live)
      ∧ Taken (order []) (withList [heldLock .all .system] live) := by
  unfold Taken Live; decide +kernel

theorem witness_HeatOrderSetsMode :
    Taken (order [2]) live ∧ heatModeArg (order [2]).args = some .off
      ∧ ¬(hearOrder (order [2]) live).core.heat.mode = .off ∧ heaterRuns live.env = true := by
  unfold Taken Live; decide +kernel

theorem witness_ClearOrderClears :
    Taken (order [0x3F]) (inState .az .fault live) ∧ classSetArg (order [0x3F]).args = some 0x3F#6
      ∧ inClassSet .drive 0x3F#6 = true ∧ Taken (order [1]) live ∧ classSetArg (order [1]).args = some 1#6
      ∧ inClassSet .drive 1#6 = false
      ∧ ¬(hearOrder (order [0x3F]) (inState .az .fault live)).core.stow.state = .failed
      ∧ (getAxis (hearOrder (order [0x3F]) (inState .az .fault live)).core .az).state = .fault
      ∧ faultRemains live.env .az (hearOrder (order [0x3F]) (inState .az .fault live)).core = false
      ∧ faultRemains live.env .az (hearOrder (order [0x3F])
          (withAxis .az (fun r => { r with state := .fault, encoderFault := true }) live)).core = true := by
  unfold Taken Live; decide +kernel

/-- FAILED re-evaluated: an axis that stays in FAULT, and each of the states that the pin and the window lead to. -/
theorem witness_ClearOrderClears_failed :
    let o := order [4]
    let failed (s : State) : State := stowIn .failed (inState .az .fault s)
    let out : State := failed (withStow (fun u => { u with causes := noCauses }) stowed)
    let pinIn (s : State) : State :=
      withSampled
        (fun n =>
          { n with
            pinEngaged := { n.pinEngaged with taken := some false }
            pinRetracted := { n.pinRetracted with taken := some true } })
        s
    let states : List State :=
      [failed (withAxis .az (fun r => { r with encoderFault := true }) stowed), withCond .pinFeedback .active out,
        withList [heldLock .drive (.key 0)] out, out, failed live, pinIn out, pinIn (byConsole out)]
    (∀ s ∈ states, Taken o s ∧ (hearOrder o s).core.stow.state = .failed ∧ s.env.inputs.ampFault = false)
      ∧ faultRemains live.env .az
          (hearOrder o (failed (withAxis .az (fun r => { r with encoderFault := true }) stowed))).core = true
      ∧ states.map (fun s => (after (.clear o) s).core.stow.state)
        = [.failed, .failed, .blocked, .stowed, .pinning, .clear, .moving] := by
  unfold Taken Live; decide +kernel

theorem witness_ProveOrderStartsProofs :
    Taken (order [3]) live ∧ proofTargetArg (order [3]).args = some (true, true)
      ∧ mayProve (hearOrder (order [3]) live).env (hearOrder (order [3]) live).core = true
      ∧ Taken (order [3]) moving
      ∧ mayProve (hearOrder (order [3]) moving).env (hearOrder (order [3]) moving).core = false := by
  unfold Taken Live; decide +kernel

/-! ### Line and peers -/

theorem witness_PeerBeaconIsStored :
    Live live ∧ live.env.setup.secA = some identity ∧ mateBeacon.length = 33 ∧ ¬(9#8).toNat = identity.station
      ∧ 1 ≤ (1#8).toNat ∧ (64#8).toNat ≤ 64 ∧ beaconWellFormed (decodeBeacon mateBeacon) = true
      ∧ isRelevant (peerOf identity 9 (decodeBeacon mateBeacon)) = true ∧ live.env.peers.length < 24
      ∧ beaconWellFormed (decodeBeacon (List.replicate 33 0)) = false
      ∧ findPeer 9 live.env.peers = none
      ∧ isRelevant (peerOf identity 9 { decodeBeacon mateBeacon with feeder := 3 }) = false
      ∧ live.env.setup.configured = true := by
  unfold Live; decide +kernel

/-- A full table: a STALE record, one without FEEDER relevance, and neither; and a record that loses its relevance. -/
theorem witness_PeerBeaconIsStored_full :
    let mates : List Peer := (List.range 23).map fun i => mate (i + 20)
    let stale := withPeers (mates ++ [{ mate 60 with isFresh := false }]) live
    let foreign := withPeers (mates ++ [{ mate 60 with relFeeder := false, relWind := true }]) live
    let full := withPeers (mates ++ [mate 60]) live
    let p := peerOf identity 9 (decodeBeacon mateBeacon)
    (∀ s ∈ [stale, foreign, full], Live s ∧ findPeer 9 s.env.peers = none ∧ 24 ≤ s.env.peers.length)
      ∧ isRelevant p = true ∧ p.relFeeder = true
      ∧ (stale.env.peers.filter fun q => !q.isFresh) ≠ [] ∧ (foreign.env.peers.filter fun q => !q.isFresh) = []
      ∧ (foreign.env.peers.filter fun q => !q.relFeeder) ≠ [] ∧ (full.env.peers.filter fun q => !q.isFresh) = []
      ∧ (full.env.peers.filter fun q => !q.relFeeder) = []
      ∧ (peerOf identity 20 (decodeBeacon mateBeacon)).relFeeder = true
      ∧ (let s := withPeers [mate 9] live
        let lost := { decodeBeacon mateBeacon with feeder := 3 }
        Live s ∧ (findPeer 9 s.env.peers).isSome = true ∧ (encodeBeacon lost).length = 33
          ∧ beaconWellFormed (decodeBeacon (encodeBeacon lost)) = true
          ∧ isRelevant (peerOf identity 9 (decodeBeacon (encodeBeacon lost))) = false) := by
  unfold Live; decide +kernel

theorem witness_OwnNumberBeaconSilences :
    Live live ∧ receiving live.env = true ∧ driving live.core.line = false ∧ ¬live.core.line.tx = .silent
      ∧ driving (withLine (fun l => { l with tx := .silent, pending := some .normal }) live).core.line = false := by
  unfold Live; decide +kernel

theorem witness_NoiseIsCounted_intact :
    (frameIntact (frameOf 0xE1 0x2B mateBeacon) = true ∧ kindOfFrame (frameOf 0xE1 0x2B mateBeacon) = 5
        ∧ originOfFrame (frameOf 0xE1 0x2B mateBeacon) = 9)
      ∧ (frameIntact (orderFrame [7, 1, 15, 2]) = true ∧ kindOfFrame (orderFrame [7, 1, 15, 2]) = 9
        ∧ originOfFrame (orderFrame [7, 1, 15, 2]) = 230)
      ∧ (frameIntact (frameOf 0xE1 0x2F []) = true ∧ kindOfFrame (frameOf 0xE1 0x2F []) = 7)
      ∧ rowOfKind 2 (order []) = some (.hold (order [])) := by decide +kernel

theorem witness_NoiseIsCounted :
    (∃ f, Instr.discardedFrame { orderFrame [] with unbroken := false } = .discardedFrame f ∧ frameIntact f = false)
      ∧ Live live ∧ receiving live.env = true ∧ driving live.core.line = false
      ∧ 16 ≤ (withLine (fun l => { l with noise := 15 }) live).core.line.noise + 1 := by
  refine ⟨⟨_, rfl, by decide +kernel⟩, rfl, ?_⟩
  decide +kernel

theorem witness_TransmissionTakesBeacon :
    let s := withLine (fun l => { l with tx := .gap, pending := some .urgent, holdOff := some 90 }) live
    Live s ∧ s.env.setup.secA = some identity ∧ s.env.setup.configured = true ∧ s.core.line.tx = .gap
      ∧ s.core.line.pending = some .urgent ∧ 15 + s.core.line.holdOff.getD 0 ≤ 105 := by
  unfold Live; decide +kernel

theorem witness_TransmitterBacksOff :
    (Live (transmitting .arbitrating) ∧ (transmitting .arbitrating).core.line.frame = some inFlight
        ∧ losesTo live.env (transmitting .arbitrating).core.line 0 = true)
      ∧ (transmitting .sending).core.line.tx = .sending
      ∧ ((transmitting .aborting).core.line.tx = .aborting ∧ (transmitting .aborting).core.line.aborts + 1 < 16)
      ∧ 16 ≤ (withLine (fun l => { l with aborts := 15 }) (transmitting .aborting)).core.line.aborts + 1 := by
  unfold Live; decide +kernel

theorem witness_LineTimersRunOut :
    let s := withLine
      (fun l =>
        { l with
          tx := .resting, restTimer := some 1000, duplicateTimer := some 30000, isolationTimer := some 10000,
          beaconTimer := some 1024, noise := 1 })
      live
    Live s ∧ s.core.line.tx = .resting ∧ expired s.core.line.restTimer 1000 = true
      ∧ expired s.core.line.duplicateTimer 30000 = true
      ∧ expired s.core.line.isolationTimer (s.env.setup.secC.isolation * 1000) = true
      ∧ intervalReached s.env s.core = true ∧ s.core.line.dueTaken = false ∧ s.core.line.noise ≤ 1 := by
  unfold Live; decide +kernel

theorem witness_CompleteBeaconServes :
    let s := withClaim (fun c => { c with kind := .slew, state := .waiting })
      (withLine (fun l => { l with frame := some { inFlight with present := true } }) (transmitting .arbitrating))
    Live s ∧ s.core.line.frame = some { inFlight with present := true } ∧ s.core.line.tx = .arbitrating
      ∧ s.core.fee.claim.state = .waiting ∧ s.core.fee.claim.announced = none
      ∧ (transmitting .sending).core.line.tx = .sending := by
  unfold Live; decide +kernel

theorem witness_PeerRecordsAge :
    let p := { mate 14 with age := 31 }
    let q := { mate 14 with age := 82, isFresh := false }
    (Live (withPeers [p] live) ∧ findPeer 14 [p] = some p ∧ p.isFresh = true ∧ 3 * 2 ^ p.exponent ≤ p.age * 100)
      ∧ (findPeer 14 [q] = some q ∧ 8 * 2 ^ q.exponent ≤ q.age * 100) := by
  unfold Live; decide +kernel

/-! ### Axes and stow -/

theorem witness_ControlIntervalSamples :
    Live reading45 ∧ ¬reading45.env.setup.statusD = .unread ∧ ¬reading45.core.stow.park = .parked
      ∧ encoderAngle reading45.env .el .silent = none
      ∧ (encoderAngle reading45.env .el (.angle 45200001) = some 45200001
          ∧ withinJump reading45.env .el (getAxis reading45.core .el) 45200001 = false)
      ∧ (encoderAngle reading45.env .el (.angle 45200000) = some 45200000
          ∧ withinJump reading45.env .el (getAxis reading45.core .el) 45200000 = true
          ∧ (getAxis reading45.core .el).encoderFault = false) := by
  unfold Live; decide +kernel

/-- What the sampling and the reads of a control interval leave. -/
def readBy (x : Samples) (s : State) : State := readEncoders x (sampleAll x (advance (toIntervalEnd s.env.now) s))

/-- The state in the window of a feedback proof, with n samples made. -/
def inWindowAt (n : Nat) : State :=
  withCore (fun k => { k with cond := { k.cond with proof := some { startFeedbackProof with sample := n } } }) live

theorem witness_ControlIntervalSamples_stored :
    (∀ s ∈ [live, inWindowAt 0, inWindowAt 1, parkIn .parked stowed], Live s)
      ∧ isOddSample live.core.cond.proof = false ∧ isOddSample (inWindowAt 0).core.cond.proof = false
      ∧ isOddSample (inWindowAt 1).core.cond.proof = true ∧ isOddSample (inWindowAt 19).core.cond.proof = true
      ∧ isOddSample (inWindowAt 21).core.cond.proof = false
      ∧ (live.env.setup.secA = some identity ∧ heaterRuns live.env = true)
      ∧ (let s := withParams (fun p => { p with secA := none, statusD := .unread }) live
         s.env.setup.secA = none ∧ heaterRuns s.env = false)
      ∧ (parkIn .parked stowed).core.stow.park = .parked ∧ ¬live.core.stow.park = .parked := by
  unfold Live; decide +kernel

theorem witness_ControlIntervalSamples_moved :
    let good (x : Samples) (s : State) : Prop := ∀ j ∈ [Axis.az, .el],
      ((encoderAngle s.env j (sampleOf x j).encoder).filter (withinJump s.env j (getAxis s.core j))).isSome = true
    let claimed (s : State) : State := withClaim (fun c => { c with state := .active }) s
    (Live slewing ∧ slewing.core.stow.park = .run ∧ slewing.env.setup.encodersRead = true
        ∧ slewing.core.axes.az.state = .active ∧ good (sampled 0) slewing
        ∧ axesRun (readBy (sampled 0) slewing).env (readBy (sampled 0) slewing).core = true)
      ∧ (claimed slewing).core.fee.claim.state = .active ∧ (claimed live).core.fee.claim.state = .active
      ∧ (let s := stowIn .demanded stowed
         s.env.setup.configured = true ∧ s.core.stow.state = .demanded ∧ good (sampled 90000000) s
           ∧ arrived (after (.controlInterval (sampled 90000000)) s).core = true)
      ∧ (let s := stowIn .moving live
         s.core.stow.state = .moving ∧ good (sampled 0) s
           ∧ arrived (after (.controlInterval (sampled 0)) s).core = false) := by
  unfold Live; decide +kernel

/-- The first row of the slew example's table, through the command; the claim that no axis needs ends. -/
theorem test_control_interval_moves :
    let t := after (.controlInterval (sampled 0)) slewing
    let u := after (.controlInterval (sampled 0)) (withClaim (fun c => { c with state := .active }) live)
    motionOf t = (20000, 200, 0) ∧ t.env.now = 10 ∧ u.core.fee.claim.state = .none := by decide +kernel

theorem witness_AxisFaultCauses :
    let s := withAxis .el
      (fun r => { r with state := .unbraking, followTimer := 500, brakeTimer := some 2000, mismatchTimer := 500 }) live
    Live s ∧ ¬(getAxis s.core .el).state = .fault ∧ 500 ≤ (getAxis s.core .el).followTimer
      ∧ brakeExpired (getAxis s.core .el) = true ∧ 500 ≤ (getAxis s.core .el).mismatchTimer := by
  unfold Live; decide +kernel

theorem witness_AmplifierFaultStopsMovingAxes :
    Live moving ∧ ¬moving.core.stow.park = .parked ∧ (getAxis live.core .az).state = .braked
      ∧ Live (parkIn .parked moving) ∧ (parkIn .parked moving).core.stow.park = .parked := by
  unfold Live; decide +kernel

theorem witness_AxisEventsComplete :
    let u := withAxis .az (fun r => { r with state := .unbraking, brakeTimer := some 1999 }) live
    let g := withAxis .el (fun r => { r with brakeTimer := some 999, releasePending := false }) moving
    let h := withAxis .az (fun r => { r with idleTimer := some 120000 }) moving
    let f := withAxis .el (fun r => { r with encoderFault := true, recovery := 10 }) live
    (Live u ∧ (getAxis u.core .az).state = .unbraking ∧ brakeExpired (getAxis u.core .az) = false)
      ∧ ((getAxis g.core .el).state = .stopping ∧ (getAxis g.core .el).engaging = true
          ∧ brakeExpired (getAxis g.core .el) = false ∧ (getAxis g.core .el).releasePending = false)
      ∧ (let p := withAxis .el (fun r => { r with brakeTimer := some 999 }) moving
        let l := withList [heldLock .drive (.key 0)] p
        (getAxis p.core .el).releasePending = true ∧ brakeExpired (getAxis p.core .el) = false
          ∧ releaseProhibited p.env p.core = false ∧ p.env.inputs.ampFault = false ∧ Live l
          ∧ releaseProhibited l.env l.core = true ∧ (getAxis l.core .el).releasePending = true)
      ∧ ((getAxis h.core .az).state = .active
          ∧ expired (getAxis h.core .az).idleTimer (h.env.setup.secB.idleBrake * 1000) = true)
      ∧ ((getAxis f.core .el).encoderFault = true ∧ 10 ≤ (getAxis f.core .el).recovery)
      ∧ 1000 ≤ { live.core.axes with onSourceTimer := 1000 }.onSourceTimer := by
  unfold Live; decide +kernel

theorem witness_PinInputIsTaken :
    let r := stowIn .releasing (withSampled
      (fun n => { n with pinEngaged := ⟨true, false, 50, some false⟩, pinRetracted := ⟨true, true, 50, none⟩ }) pinning)
    (Live pinning ∧ 50 ≤ (pinFilter pinning.env.inputs .engaged).held ∧ pinning.env.setup.configured = true
        ∧ pinning.core.stow.state = .pinning ∧ pinEngaged (after (.pinInputTaken .engaged) pinning).env = true
        ∧ pinRetracted (after (.pinInputTaken .engaged) pinning).env = false ∧ inWindow pinning.core = true)
      ∧ (50 ≤ (pinFilter r.env.inputs .retracted).held ∧ r.core.stow.state = .releasing
          ∧ pinRetracted (after (.pinInputTaken .retracted) r).env = true
          ∧ pinEngaged (after (.pinInputTaken .retracted) r).env = false)
      ∧ (50 ≤ (pinFilter ready.env.inputs .retracted).held ∧ ready.env.setup.configured = false)
      ∧ (let away (s : State) : State := withAxis .el (fun r => { r with reading := some 80000000 }) s
        let both (st : StowState) : State := stowIn st 
          (withSampled (fun n => { n with pinRetracted := ⟨true, true, 0, some true⟩ }) pinning)
        let out (s : State) : State := withSampled (fun n => { n with pinEngaged := ⟨true, false, 50, some true⟩ }) s
        [after (.pinInputTaken .engaged) (away pinning), after (.pinInputTaken .engaged) (both .pinning),
            after (.pinInputTaken .engaged) (away stowed), after (.pinInputTaken .engaged) (both .releasing),
            after (.pinInputTaken .engaged) (out stowed),
            after (.pinInputTaken .engaged) (out (withList [heldLock .drive (.key 0)] stowed))].map
            (fun t => t.core.stow.state) = [.failed, .failed, .failed, .failed, .pinning, .blocked]) := by
  unfold Live; decide +kernel

theorem witness_StowTimersRunOut :
    (Live pinning ∧ pinning.core.stow.state = .pinning
        ∧ expired pinning.core.stow.pinTimer (pinning.env.setup.secB.pinLimit * 1000) = true
        ∧ pinDefined pinning.env pinning.core = false)
      ∧ expired (some 1200000) (live.env.setup.secC.releaseHold * 60000) = true := by
  unfold Live; decide +kernel

theorem witness_WakeSettleEnds :
    let s := withStow (fun u => { u with park := .waking, settleTimer := some 3000, pendingRelease := true, causes := noCauses })
      stowed
    Live s ∧ s.core.stow.park = .waking ∧ expired s.core.stow.settleTimer s.env.setup.secB.wakeSettle = true
      ∧ s.core.stow.state = .stowed ∧ s.env.inputs.ampFault = false := by
  unfold Live; decide +kernel

/-! ### Wind, feeder, lockouts, heater -/

def inBin : State := withWind (fun w => { w with binClock := some 250 }) live

theorem witness_PulsesAndGrace :
    (Live inBin ∧ inBin.env.wind.binClock.isSome = true ∧ inBin.env.wind.proof = none)
      ∧ (withWind (fun w => { w with proof := some (shadows 0 0) }) inBin).env.wind.proof.isSome = true
      ∧ expired (withWind (fun w => { w with grace := some 5048 }) live).env.wind.grace (graceMs live.env) = true := by
  unfold Live; decide +kernel

def stalling : State :=
  withPeers [{ mate 16 with relWind := true, vote := .calm, gust := 50 }] (withWind (fun w => { w with stall := 719 }) inBin)

def proving (n : Nat) : State :=
  withParams (fun p => { p with secC := gusty }) (withWind (fun w => { w with proof := some (shadows 15 n) }) inBin)

theorem witness_BinEndFormsGustAndMean :
    (Live elevenBins ∧ elevenBins.env.wind.binClock.isSome = true ∧ gustFalls elevenBins.env.wind = true
        ∧ (pushRing 12 elevenBins.env.wind.ring 0).length = 12)
      ∧ (blockFalls { inBin.env.wind with blockBins := 59 } = true ∧ stallFalls stalling = true
          ∧ verdictFalls 15 (proving 15) = true)
      ∧ ¬(pushRing 12 inBin.env.wind.ring 0).length = 12 ∧ ¬inBin.env.wind.blockBins = 59 := by
  unfold Live; decide +kernel

theorem witness_BinEndHandsOn :
    (Live inBin ∧ inBin.env.wind.binClock.isSome = true) ∧ (Live stalling ∧ stallFalls stalling = true)
      ∧ (Live (proving 15) ∧ verdictNow (proving 15).env.setup.secC 15 (proving 15).env.wind = some false)
      ∧ verdictNow gusty 0 { inBin.env.wind with proof := some (shadows 0 7) } = some true := by
  unfold Live; decide +kernel

theorem witness_WaitingClaimIsAdmitted :
    let s := waiting 100
    let w := withClaim (fun c => { c with kind := .stow, waitAge := 50 }) (waiting 99)
    (Live s ∧ hasBudget s.env = true ∧ s.core.fee.claim.state = .waiting ∧ claimSettled s.env s.core.fee.claim = true
        ∧ s.core.fee.claim.settled = false ∧ mayAdmit s.env s.core = true)
      ∧ (expired { s.core.fee with fill := some 5048 }.fill (graceMs s.env) = true
          ∧ mayAdmit s.env { s.core with fee := { s.core.fee with fill := none } } = true)
      ∧ (w.core.fee.claim.kind = .stow ∧ min 255 (w.env.setup.secC.stowWait * 10) ≤ w.core.fee.claim.waitAge
          ∧ setActive w.core = true ∧ mayAdmit w.env w.core = false)
      ∧ (stowIn .demanded w).core.stow.state = .demanded
      ∧ (let n := waiting 99
        Live n ∧ mayAdmit n.env n.core = false ∧ mustForce n.env n.core = false
          ∧ mayAdmit n.env { n.core with fee := { n.core.fee with fill := none } } = false
          ∧ expired (some 5048) (graceMs n.env) = true) := by
  unfold Live; decide +kernel

theorem witness_KeyDecidesItsRecord :
    let s := withSampled (fun n => { n with keys := ⟨⟨true, true, 50, none⟩, ⟨true, false, 50, none⟩, n.keys.z3, n.keys.z4⟩ }) live
    Live s ∧ s.env.setup.secA = some identity ∧ 50 ≤ (fourGet s.env.inputs.keys 0).held
      ∧ (fourGet s.env.inputs.keys 0).level = true ∧ 50 ≤ (fourGet s.env.inputs.keys 1).held
      ∧ (fourGet s.env.inputs.keys 1).level = false ∧ s.env.list.find? (fun l => l.origin = .key 0) = none
      ∧ [heldLock .drive (.key 0)].find? (fun l => l.origin = .key 0) = some (heldLock .drive (.key 0))
      ∧ [heldLock .area (.key 0)].find? (fun l => l.origin = .key 0) = some (heldLock .area (.key 0))
      ∧ (fourGet identity.keys 0).kind = .drive
      ∧ ((orderCarried (.unlock (order [2]))).isSome = true
        ∧ heldLock .drive (.key 0) ∈ (withList [heldLock .drive (.key 0)] live).env.list) := by
  unfold Live; decide +kernel

theorem witness_RecordWriteEnds :
    let s := { live with store := { emptyStore with writing := some (.system, 2) } }
    let r := { live with store := { emptyStore with writing := some (.system, 2), queue := [.system, .key 1] } }
    (Live s ∧ s.store.writing = some (.system, 2) ∧ 2 ≤ 2 ∧ s.store.queue = [])
      ∧ (Live r ∧ r.store.queue = Ident.system :: [.key 1] ∧ Ident.system ∈ r.store.queue) := by
  unfold Live; decide +kernel

theorem witness_PollRoundReadsSensors :
    Live live ∧ heaterRuns live.env = true ∧ fitted live.env 0 = true
      ∧ (-550 ≤ (-550 : Int) ∧ (850 : Int) ≤ 850)
      ∧ (∀ v, some (-551) = some v → v < -550 ∨ 850 < v) ∧ (∀ v, some 851 = some v → v < -550 ∨ 850 < v)
      ∧ (∀ v, (none : Option Int) = some v → v < -550 ∨ 850 < v)
      ∧ fitted (withParams (fun p => { p with secD := { p.secD with power := ⟨0, 300, 300, 300⟩ } }) live).env 0 = false := by
  refine ⟨rfl, by decide +kernel, by decide +kernel, by decide, ?_, ?_, ?_, by decide +kernel⟩
  · intro v h; cases h; decide
  · intro v h; cases h; decide
  · intro v h; cases h

theorem witness_HeaterFaultsHoldZonesOff :
    let s := withZone 2 (fun z => { z with fails := 3, mismatch := 500, cycle := 1, on := true })
      (withCore (fun k => { k with heat := { k.heat with ambientFails := 3 } }) live)
    Live s ∧ fitted s.env 2 = true ∧ 3 ≤ (fourGet s.core.heat.zones 2).fails ∧ 3 ≤ s.core.heat.ambientFails
      ∧ 500 ≤ (fourGet s.core.heat.zones 2).mismatch ∧ 0 < (fourGet s.core.heat.zones 2).cycle
      ∧ (let u := withCore (fun k => { k with heat := { k.heat with ambientFails := 3 } })
          (withParams (fun p => { p with secD := { p.secD with power := ⟨0, 0, 0, 0⟩ } }) live)
         Live u ∧ 3 ≤ u.core.heat.ambientFails ∧ ∀ z ∈ allFour, fitted u.env z = false) := by
  unfold Live; decide +kernel

theorem witness_HeaterTimersAndCycles :
    let s := withSampled (fun n => { n with wetLevel := true, wetHeld := 2000 })
      (withCore (fun k => { k with heat := { k.heat with memory := some 3600000 } })
        (withZone 3 (fun z => { z with cycle := 150, on := true, phase := 3000 }) live))
    Live s ∧ heaterRuns s.env = true ∧ 2000 ≤ s.env.inputs.wetHeld ∧ ¬s.env.inputs.wetLevel = s.core.heat.wet
      ∧ expired s.core.heat.memory (s.env.setup.secD.wetMemory * 60000) = true ∧ fitted s.env 3 = true
      ∧ onTimeOver s.env (fourGet s.core.heat.zones 3) = true
      ∧ (fourGet s.core.heat.zones 3).untilFirst = none ∧ ¬{ startZone with untilFirst := some 0 }.untilFirst = none := by
  unfold Live; decide +kernel

theorem witness_FeedbackVerdictFalls :
    let p := { startFeedbackProof with sample := 20 }
    let s := withCore (fun k => { k with cond := { k.cond with proof := some p } }) live
    Live s ∧ s.core.cond.proof = some p ∧ 20 ≤ p.sample ∧ proofFails s.env p = true
      ∧ proofFails s.env { p with proven := 0x3FF, failed := 0 } = false := by
  unfold Live; decide +kernel

/-! ### Resets and start -/

/-- Within the hold-up time, close to it either way, and beyond it, whatever the spread is. -/
theorem witness_ResetMakesSafe :
    (0 < 1 ∧ 1 ≤ 1 ∧ 200 ≤ 200) ∧ (200 < 201 ∧ true = true)
      ∧ 200 + Config.holdUpSpread ≤ 200 + Config.holdUpSpread
      ∧ 200 + Config.holdUpSpread < 201 + Config.holdUpSpread ∧ emptyStore.emptying = true ∧ emptyStore.valid = true :=
  ⟨by decide, by decide, Nat.le_refl _, by omega, rfl, rfl⟩

theorem witness_StartInstantDecides :
    State.reset.inReset = true ∧ storeGood State.reset.store = false
      ∧ ({ live with inReset := true, store := cutStore } : State).inReset = true ∧ storeGood cutStore = true := by
  decide +kernel

theorem witness_SectionIsInstalledOrFails :
    (∀ x ∈ [SectionId.a, .b, .c, .d], Live (loading x) ∧ (loading x).env.setup.loading = some x)
      ∧ parseA [] = none ∧ parseB [] = none ∧ parseC [] = none ∧ parseD [] = none
      ∧ parseA imageA = some identity ∧ parseB imageB = some defaultB ∧ parseC imageC = some defaultC
      ∧ parseD imageD = some defaultD := by
  refine ⟨by unfold Live; decide +kernel, ?_, ?_, ?_, ?_, test_image_a, test_image_b, test_image_c, test_image_d⟩ <;>
    decide +kernel

/-- Section D installed over a system record that a fault left, the others good. -/
theorem witness_SectionIsInstalledOrFails_cold :
    let s := withList [heldLock .all .system] (loading .d)
    Live s ∧ s.env.setup.loading = some .d ∧ s.env.setup.statusA = .installed ∧ s.env.setup.statusB = .installed
      ∧ s.env.setup.statusC = .installed ∧ (systemRecord s.env.list).isSome = true
      ∧ systemRecord (loading .d).env.list = none := by
  unfold Live; decide +kernel

/-- A derived CLEAR with a cause: under a blocking record, with an axis in FAULT, and with neither. -/
theorem witness_ConfigurationCompletes_demand :
    let s := byConsole ready
    (∀ t ∈ [s, withList [heldLock .drive (.key 0)] s, inState .el .fault s],
        Live t ∧ mayComplete t.env = true ∧ ¬t.core.stow.causes = noCauses ∧ derivedStow t.env t.core = .clear
          ∧ t.env.inputs.ampFault = false)
      ∧ [withList [heldLock .drive (.key 0)] s, inState .el .fault s, s].map
          (fun t => (after .configurationComplete t).core.stow.state) = [.blocked, .failed, .demanded] := by
  unfold Live; decide +kernel

theorem witness_ConfigurationCompletes :
    (Live ready ∧ mayComplete ready.env = true ∧ receiving ready.env = true ∧ ready.core.stow.causes = noCauses)
      ∧ ¬derivedStow (withSampled (fun n => { n with pinRetracted := ⟨true, false, 50, some false⟩ }) ready).env
          ready.core = .clear
      ∧ derivedStow (withSampled (fun n => { n with pinRetracted := ⟨true, false, 50, some false⟩ }) ready).env
          ready.core = .failed := by
  unfold Live; decide +kernel

end Sys2Proof.Tests
end

