-- ==== Sys2Proof/Proofs/AxisMotion.lean ====
section
/-! PROOFS. The axis motion's orders: what a taken order that acts on the core's blocks leaves (R162 to R167), and the tests of POINT (R21). -/

namespace Sys2Proof.Machine

/-! ## The answer to a taken order -/

/-- The state in which a taken order leaves the station `h` that has heard it: the blocks and the code that its owner
gave, the result written, everything settled. -/
def afterOrder (old : Nat) (o : Order) (h : State) (r : Core × Code) : State :=
  settle old (giveResult o r.2 { h with core := r.1 })

@[simp] theorem afterOrder_code (old : Nat) (o : Order) (h : State) (r : Core × Code) :
    (afterOrder old o h r).slot.code = r.2 := rfl
@[simp] theorem afterOrder_env (old : Nat) (o : Order) (h : State) (r : Core × Code) :
    (afterOrder old o h r).env = h.env := rfl

/-- The result and the settling leave the owner's axes, stow unit, feeder account, heater unit and conditions. -/
theorem afterOrder_blocks (old : Nat) (o : Order) (h : State) (r : Core × Code) :
    (afterOrder old o h r).core.axes = r.1.axes ∧ (afterOrder old o h r).core.stow = r.1.stow
      ∧ (afterOrder old o h r).core.fee = r.1.fee ∧ (afterOrder old o h r).core.heat = r.1.heat
      ∧ (afterOrder old o h r).core.cond = r.1.cond := by
  obtain ⟨haxes, hstow, hheat, hfee, hcond, -⟩ := giveResult_core o r.2 { h with core := r.1 }
  exact ⟨(settle_axes old _).trans haxes, (settle_stow old _).trans hstow, (settle_fee old _).trans hfee,
    (settle_heat old _).trans hheat, (settle_cond old _).trans hcond⟩

/-- Neither the result nor the settling writes a record or a mark (R78). -/
theorem afterOrder_store (old : Nat) (o : Order) (h : State) (r : Core × Code) :
    (afterOrder old o h r).store.records = h.store.records ∧ (afterOrder old o h r).store.marks = h.store.marks := by
  obtain ⟨-, hrecords, hmarks, -⟩ := settle_store old (giveResult o r.2 { h with core := r.1 })
  exact ⟨hrecords, hmarks⟩

/-- Hearing an order leaves the retained store alone. -/
theorem hearOrder_store (o : Order) (s : State) : (hearOrder o s).store = s.store := by
  obtain ⟨-, -, hstore, -⟩ := hearOrder_parts o s
  exact hstore

/-- A taken order of good form whose owner acts on the core alone is answered with the owner's work on the heard station. -/
theorem run_takeOrder_onCore {α : Type} {o : Order} {parse : List Byte → Option α} {a : α}
    (f : α → Env → Core → Core × Code) {s : State} (ht : Taken o s) (hp : parse o.args = some a) :
    run (takeOrder o parse (onCore f)) s =
      .next (afterOrder (intervalOf s) o (hearOrder o s) (f a (hearOrder o s).env (hearOrder o s).core)) := by
  obtain ⟨hlive, htaken⟩ := ht
  rw [run_live _ s hlive, takeOrder_good htaken hp]
  rfl

/-! ## POINT (R21) -/

theorem exec_point (o : Order) (s : State) : exec (.point o) s = run (takeOrder o pointArgs (onCore pointOrder)) s := rfl

/-- R21's argument test: the azimuth range and the track band of either rate. -/
theorem pointOutOfRange_iff (e : Env) (a : PointArgs) :
    pointOutOfRange e a = true ↔
      a.azimuth < 0 ∨ 359999 < a.azimuth ∨ (e.setup.secB.trackBand : Int) < absInt a.azRate
        ∨ (e.setup.secB.trackBand : Int) < absInt a.elRate := by
  simp only [pointOutOfRange, inRangeInt, Bool.or_eq_true, Bool.not_eq_true', Bool.and_eq_false_iff,
    decide_eq_true_eq, decide_eq_false_iff_not, not_le, or_assoc]

/-- A refused POINT leaves the blocks and answers with the test that refused it. -/
theorem pointOrder_refused {e : Env} {a : PointArgs} {k : Core} {c : Code} (h : pointRefusal e a k = some c) :
    pointOrder a e k = (k, c) := by simp [pointOrder, h]

/-- An accepted POINT says whether R22 clamped or raised a position. -/
theorem pointOrder_accepted {e : Env} {a : PointArgs} {k : Core} (h : pointRefusal e a k = none) :
    (pointOrder a e k).2 =
      if (pointAzimuth e a k).clamped = true ∨ (pointElevation e a).clamped = true then .clamped else .done := by
  simp [pointOrder, h]

/-- The answer of a POINT is its first test that refuses, else that of an accepted one. -/
theorem pointOrder_code (e : Env) (a : PointArgs) (k : Core) :
    (pointOrder a e k).2 =
      (pointRefusal e a k).getD
        (if (pointAzimuth e a k).clamped = true ∨ (pointElevation e a).clamped = true then .clamped else .done) := by
  cases h : pointRefusal e a k with
  | none => exact pointOrder_accepted h
  | some c => rw [pointOrder_refused h, Option.getD_some]

/-- The four tests of R21 in their order, `d` standing for the answer of a POINT that passes them. -/
theorem pointRefusal_getD (e : Env) (a : PointArgs) (k : Core) (d : Code) :
    (pointRefusal e a k).getD d =
      if pointBlocked e.list = true then .locked
      else if ¬k.stow.state = .clear then .stowing
      else if someFault k = true then .fault
      else if a.azimuth < 0 ∨ 359999 < a.azimuth ∨ (e.setup.secB.trackBand : Int) < absInt a.azRate
          ∨ (e.setup.secB.trackBand : Int) < absInt a.elRate then .argument
      else d := by
  simp only [pointRefusal, ← pointOutOfRange_iff, Bool.not_eq_true', decide_eq_false_iff_not, apply_ite (Option.getD · d),
    Option.getD_some, Option.getD_none]

/-- A POINT that answers neither CLAMPED nor DONE leaves the blocks as they were. -/
theorem pointOrder_frame {e : Env} {a : PointArgs} {k : Core} (hc : ¬(pointOrder a e k).2 = .clamped)
    (hd : ¬(pointOrder a e k).2 = .done) : (pointOrder a e k).1 = k := by
  cases h : pointRefusal e a k with
  | some c => rw [pointOrder_refused h]
  | none =>
    rw [pointOrder_accepted h] at hc hd
    split at hc
    · exact absurd rfl hc
    · rename_i hn
      exact absurd (if_neg hn) hd

/-- Settles O19: POINT's answer is its tests in R21's order, and where one refuses it the heard station's blocks pass
through the result and the settling unchanged. -/
theorem pointOrderTests : Obligations.PointOrderTests := by
  intro o a s ht hp
  refine ⟨_, (exec_point o s).trans (run_takeOrder_onCore pointOrder ht hp), ?_, fun hc hd => ?_⟩
  · rw [afterOrder_code, pointOrder_code, pointRefusal_getD]
  · obtain ⟨haxes, hstow, hfee, hheat, hcond⟩ := afterOrder_blocks (intervalOf s) o (hearOrder o s)
      (pointOrder a (hearOrder o s).env (hearOrder o s).core)
    obtain ⟨hrecords, hmarks⟩ := afterOrder_store (intervalOf s) o (hearOrder o s)
      (pointOrder a (hearOrder o s).env (hearOrder o s).core)
    rw [pointOrder_frame hc hd] at haxes hstow hfee hheat hcond
    rw [hearOrder_store] at hrecords hmarks
    exact ⟨haxes, hstow, hfee, hheat, hcond, afterOrder_env .., hrecords, hmarks⟩

end Sys2Proof.Machine
end

section
/-! PROOFS. The lockout list's orders and keys: what a change of the list leaves of it and of the open marks (R69, R79), the five cases of LOCK (R74), the record of a key that is taken, and that no order removes it (R73). -/

namespace Sys2Proof.Machine

/-! ## Identities (R79) -/

@[simp] theorem lockIdent_newLock (k : LockKind) (o : Origin) : lockIdent (newLock k o) = identOf k o := rfl
@[simp] theorem lockIdent_settleLock (l : Lock) : lockIdent (settleLock l) = lockIdent l := rfl

/-- A key owns one identity, whatever the kind of its record. -/
theorem lockIdent_eq_key_iff (l : Lock) (n : Fin 4) : lockIdent l = .key n ↔ l.origin = .key n := by
  cases h : l.origin <;> simp [lockIdent, identOf, h]

theorem findIdent_key (n : Fin 4) (ls : List Lock) : findIdent (.key n) ls = ls.find? fun l => l.origin = .key n := by
  simp only [findIdent, lockIdent_eq_key_iff]

theorem dropIdent_key (n : Fin 4) (ls : List Lock) :
    dropIdent (.key n) ls = ls.filter fun l => !decide (l.origin = .key n) := by
  simp only [dropIdent, lockIdent_eq_key_iff]

theorem settleIdent_key (n : Fin 4) (ls : List Lock) :
    settleIdent (.key n) ls =
      ls.map fun l => if decide (l.origin = .key n) = true then { l with uncertain := false } else l := by
  simp only [settleIdent, lockIdent_eq_key_iff, decide_eq_true_eq]
  rfl

/-! ## Records of other identities stand -/

theorem mem_dropIdent_of_ne {i : Ident} {l : Lock} (h : ¬lockIdent l = i) (ls : List Lock) :
    l ∈ dropIdent i ls ↔ l ∈ ls := by simp [dropIdent, h]

theorem mem_settleIdent_of_ne {i : Ident} {l : Lock} (h : ¬lockIdent l = i) (ls : List Lock) :
    l ∈ settleIdent i ls ↔ l ∈ ls := by
  simp only [settleIdent, List.mem_map]
  constructor
  · rintro ⟨r, hr, rfl⟩
    by_cases hi : lockIdent r = i
    · exact absurd (by rw [if_pos hi, lockIdent_settleLock, hi]) h
    · rwa [if_neg hi]
  · exact fun hl => ⟨l, hl, if_neg h⟩

theorem mem_append_newLock_of_ne {k : LockKind} {o : Origin} {l : Lock} (h : ¬lockIdent l = identOf k o)
    (ls : List Lock) : l ∈ ls ++ [newLock k o] ↔ l ∈ ls := by
  have hne : ¬l = newLock k o := fun hl => h (by rw [hl, lockIdent_newLock])
  simp [hne]

/-! ## An origin that owns one record (R73) -/

theorem putOwned_absent {k : LockKind} {o : Origin} {ls : List Lock} (h : findIdent (identOf k o) ls = none) :
    putOwned k o ls = ls ++ [newLock k o] := by simp [putOwned, h]

theorem putOwned_sameKind {k : LockKind} {o : Origin} {ls : List Lock} {r : Lock}
    (h : findIdent (identOf k o) ls = some r) (hk : r.kind = k) :
    putOwned k o ls = settleIdent (identOf k o) ls := by simp [putOwned, h, hk]

theorem putOwned_otherKind {k : LockKind} {o : Origin} {ls : List Lock} {r : Lock}
    (h : findIdent (identOf k o) ls = some r) (hk : ¬r.kind = k) :
    putOwned k o ls = dropIdent (identOf k o) ls ++ [newLock k o] := by simp [putOwned, h, hk]

theorem mem_putOwned_of_ne {k : LockKind} {o : Origin} {l : Lock} (h : ¬lockIdent l = identOf k o) (ls : List Lock) :
    l ∈ putOwned k o ls ↔ l ∈ ls := by
  cases hf : findIdent (identOf k o) ls with
  | none => rw [putOwned_absent hf, mem_append_newLock_of_ne h]
  | some r =>
    by_cases hk : r.kind = k
    · rw [putOwned_sameKind hf hk, mem_settleIdent_of_ne h]
    · rw [putOwned_otherKind hf hk, mem_append_newLock_of_ne h, mem_dropIdent_of_ne h]

/-! ## A change of the list (R69, R79) -/

@[simp] theorem changeList_list (new : List Lock) (ms : List Mark) (s : State) :
    (changeList new ms s).env.list = new := by
  unfold changeList
  split
  · rename_i h
    exact h.symm
  · rfl

@[simp] theorem changeList_inputs (new : List Lock) (ms : List Mark) (s : State) :
    (changeList new ms s).env.inputs = s.env.inputs := by
  unfold changeList
  split <;> rfl

theorem beginWrite_marks (ls : List Lock) (st : Store) : (beginWrite ls st).marks = st.marks := by
  unfold beginWrite
  split <;> rfl

/-- A change that is taken leaves its open mark, whether or not its write begins at once. -/
theorem mark_mem_takeChange (ls : List Lock) (m : Mark) (st : Store) : m ∈ (takeChange ls m st).marks := by
  rw [takeChange, beginWrite_marks]
  simp [openMark]

/-- A list that differs by one change opens that change's mark. -/
theorem mark_mem_changeList {new : List Lock} {s : State} (h : ¬new = s.env.list) (m : Mark) :
    m ∈ (changeList new [m] s).store.marks := by
  rw [changeList, if_neg h]
  exact mark_mem_takeChange new m s.store

@[simp] theorem setOwned_list (k : LockKind) (o : Origin) (s : State) :
    (setOwned k o s).env.list = putOwned k o s.env.list := changeList_list ..
@[simp] theorem setOwned_inputs (k : LockKind) (o : Origin) (s : State) :
    (setOwned k o s).env.inputs = s.env.inputs := changeList_inputs ..

@[simp] theorem removeIdent_list (i : Ident) (s : State) : (removeIdent i s).env.list = dropIdent i s.env.list := by
  unfold removeIdent
  split
  · rename_i h
    simp only [findIdent, List.find?_eq_none, decide_eq_true_eq] at h
    exact (List.filter_eq_self.mpr fun l hl => by simp [h l hl]).symm
  · exact changeList_list ..

@[simp] theorem removeIdent_inputs (i : Ident) (s : State) : (removeIdent i s).env.inputs = s.env.inputs := by
  unfold removeIdent
  split
  · rfl
  · exact changeList_inputs ..

/-! ## LOCK (R74) -/

theorem exec_lock (o : Order) (s : State) :
    exec (.lock o) s = run (takeOrder o lockKindArg fun k => lockOrder k o.console.toNat) s := rfl

section
variable {k : LockKind} {c : Nat} {s : State}

theorem lockOrder_held {l : Lock} (h : findIdent (.console k c) s.env.list = some l) (hu : l.uncertain = false) :
    lockOrder k c s = (s, .done) := by simp [lockOrder, h, hu]

theorem lockOrder_uncertain {l : Lock} (h : findIdent (.console k c) s.env.list = some l) (hu : l.uncertain = true) :
    lockOrder k c s = (changeList (settleIdent (.console k c) s.env.list) [markOf l] s, .done) := by
  simp [lockOrder, h, hu]

theorem lockOrder_full (h : findIdent (.console k c) s.env.list = none)
    (hc : consoleMax ≤ consoleCount s.env.list s.store) : lockOrder k c s = (s, .full) := by simp [lockOrder, h, hc]

theorem lockOrder_busy (h : findIdent (.console k c) s.env.list = none)
    (hc : consoleCount s.env.list s.store < consoleMax) (hq : queueRefuses [.console k c] s.store = true) :
    lockOrder k c s = (s, .busy) := by simp [lockOrder, h, Nat.not_le.mpr hc, hq]

theorem lockOrder_placed (h : findIdent (.console k c) s.env.list = none)
    (hc : consoleCount s.env.list s.store < consoleMax) (hq : queueRefuses [.console k c] s.store = false) :
    lockOrder k c s =
      (changeList (s.env.list ++ [newLock k (.console c)]) [{ kind := k, origin := .console c }] s, .done) := by
  simp [lockOrder, h, Nat.not_le.mpr hc, hq]

end

/-- A taken order of good form: the code, the list and the records' part of the store are those its owner leaves on the
station that has heard it. -/
theorem takeOrder_answers {α : Type} {o : Order} {parse : List Byte → Option α} {a : α} (act : α → State → State × Code)
    {s : State} (ht : Taken o s) (hp : parse o.args = some a) :
    let r := act a (hearOrder o s)
    ∃ t, run (takeOrder o parse act) s = .next t ∧ t.slot.code = r.2 ∧ t.env = r.1.env
      ∧ t.store.records = r.1.store.records ∧ t.store.marks = r.1.store.marks ∧ t.store.queue = r.1.store.queue := by
  intro r
  obtain ⟨hlive, htaken⟩ := ht
  obtain ⟨-, hrecords, hmarks, hqueue, -⟩ := settle_store (intervalOf s) (giveResult o r.2 r.1)
  refine ⟨settle (intervalOf s) (giveResult o r.2 r.1), ?_, rfl, rfl, hrecords, hmarks, hqueue⟩
  rw [run_live _ s hlive, takeOrder_good htaken hp]

/-- Settles O26: hearing the order leaves the list and the store, and the answer is the first case of R74 that holds. -/
theorem lockOrderCases : Obligations.LockOrderCases := by
  intro o k s ht hk c i
  obtain ⟨t, hrun, hcode, henv, hrecords, hmarks, hqueue⟩ :=
    takeOrder_answers (fun k => lockOrder k o.console.toNat) ht hk
  obtain ⟨hheardEnv, -, hheardStore, -⟩ := hearOrder_parts o s
  refine ⟨t, (exec_lock o s).trans hrun, ?_⟩
  rw [← hheardEnv, ← hheardStore, hcode, henv, hrecords, hmarks, hqueue]
  generalize hearOrder o s = h
  refine ⟨fun l hl => ?_, fun hnone => ⟨fun hfull => ?_, fun hroom hbusy => ?_, fun hroom hfree => ?_⟩⟩
  · cases hu : l.uncertain with
    | false =>
      rw [lockOrder_held hl hu]
      exact ⟨rfl, rfl, fun _ => ⟨rfl, rfl, rfl⟩⟩
    | true =>
      rw [lockOrder_uncertain hl hu]
      exact ⟨rfl, changeList_list .., fun hheld => nomatch hheld⟩
  · rw [lockOrder_full hnone hfull]
    exact ⟨rfl, rfl⟩
  · rw [lockOrder_busy hnone hroom hbusy]
    exact ⟨rfl, rfl⟩
  · rw [lockOrder_placed hnone hroom hfree]
    exact ⟨rfl, changeList_list .., mark_mem_changeList (by simp) _⟩

/-! ## A key is taken (R73) -/

theorem exec_keyTaken (n : Fin 4) (s : State) : exec (.keyTaken n) s = run (takeKey n) s := rfl

/-- The inputs with a key noted as taken at its present level (R72). -/
def keyNoted (n : Fin 4) (x : Inputs) : Inputs :=
  { x with keys := fourSet x.keys n { fourGet x.keys n with taken := some (fourGet x.keys n).level } }

theorem keyNoted_taken (n : Fin 4) (x : Inputs) :
    (fourGet (keyNoted n x).keys n).taken = some (fourGet x.keys n).level := by
  rw [keyNoted, fourGet_fourSet]

/-- A key whose filter has run is noted, and its record is settled by its level. -/
theorem takeKey_ready {n : Fin 4} {a : SecA} {s : State} (ha : s.env.setup.secA = some a)
    (h : pinFilterMs ≤ (fourGet s.env.inputs.keys n).held) :
    takeKey n s =
      settleKey n (fourGet a.keys n).kind (fourGet s.env.inputs.keys n).level
        (withInputs (keyNoted n s.env.inputs) s) := by
  simp only [takeKey, ha, filterReady, h, decide_true, if_true]
  rfl

@[simp] theorem settleKey_inputs (n : Fin 4) (k : LockKind) (b : Bool) (s : State) :
    (settleKey n k b s).env.inputs = s.env.inputs := by cases b <;> simp [settleKey]

theorem settleKey_list (n : Fin 4) (k : LockKind) (b : Bool) (s : State) :
    (settleKey n k b s).env.list =
      if b = true then putOwned k (.key n) s.env.list else dropIdent (.key n) s.env.list := by
  cases b <;> simp [settleKey]

theorem settleKey_others {n : Fin 4} {l : Lock} (h : ¬l.origin = .key n) (k : LockKind) (b : Bool) (s : State) :
    l ∈ (settleKey n k b s).env.list ↔ l ∈ s.env.list := by
  have hne : ¬lockIdent l = .key n := fun hl => h ((lockIdent_eq_key_iff l n).mp hl)
  rw [settleKey_list]
  split
  · exact mem_putOwned_of_ne hne _
  · exact mem_dropIdent_of_ne hne _

/-! ## No order removes a key's record (R73) -/

/-- Every key record of one list stands in another. -/
def KeyRecordsStand (old new : List Lock) : Prop := ∀ l n, l.origin = .key n → l ∈ old → l ∈ new

/-- A work of the station keeps the key records of its list. -/
def KeepsKeys (f : State → State) : Prop := ∀ s, KeyRecordsStand s.env.list (f s).env.list

theorem KeyRecordsStand.refl (ls : List Lock) : KeyRecordsStand ls ls := fun _ _ _ hl => hl

theorem KeyRecordsStand.ofEq {old new : List Lock} (h : new = old) : KeyRecordsStand old new := h ▸ .refl new

/-- A record of a key has another identity than the system's and the consoles'. -/
theorem lockIdent_ne_of_key {l : Lock} {n : Fin 4} {i : Ident} (h : l.origin = .key n) (hi : ¬i = .key n) :
    ¬lockIdent l = i := by
  rw [(lockIdent_eq_key_iff l n).mpr h]
  exact Ne.symm hi

theorem lockOrder_keepsKeys (k : LockKind) (c : Nat) : KeepsKeys fun s => (lockOrder k c s).1 := by
  intro s
  simp only []
  cases hf : findIdent (.console k c) s.env.list with
  | some r =>
    cases hu : r.uncertain with
    | false => rw [lockOrder_held hf hu]; exact .refl _
    | true =>
      intro l n hl hmem
      rw [lockOrder_uncertain hf hu, changeList_list]
      exact (mem_settleIdent_of_ne (lockIdent_ne_of_key hl (by simp)) _).mpr hmem
  | none =>
    rcases Nat.lt_or_ge (consoleCount s.env.list s.store) consoleMax with hroom | hfull
    · cases hq : queueRefuses [.console k c] s.store with
      | true => rw [lockOrder_busy hf hroom hq]; exact .refl _
      | false =>
        intro l n _ hmem
        rw [lockOrder_placed hf hroom hq, changeList_list]
        exact List.mem_append_left _ hmem
    · rw [lockOrder_full hf hfull]; exact .refl _

/-- An UNLOCK acts on records of its own console alone (R75). -/
theorem origin_of_mem_unlockTargets {k : LockKind} {c : Nat} {ls : List Lock} {l : Lock}
    (h : l ∈ unlockTargets k c ls) : l.origin = .console c := by
  rw [unlockTargets, List.mem_append, Option.mem_toList, Option.mem_toList] at h
  obtain hheld | huncertain := h
  · have hp := List.find?_some hheld
    simp only [Bool.and_eq_true, decide_eq_true_eq] at hp
    obtain ⟨⟨horigin, -⟩, -⟩ := hp
    exact horigin
  · have hp := List.find?_some huncertain
    simp only [Bool.and_eq_true, decide_eq_true_eq] at hp
    obtain ⟨horigin, -⟩ := hp
    exact horigin

theorem unlockOrder_keepsKeys (k : LockKind) (c : Nat) : KeepsKeys fun s => (unlockOrder k c s).1 := by
  intro s
  simp only [unlockOrder]
  split
  · exact .refl _
  split
  · exact .refl _
  · intro l n hl hmem
    have hout : ¬l ∈ unlockTargets k c s.env.list := fun h => by
      rw [origin_of_mem_unlockTargets h] at hl
      cases hl
    rw [changeList_list]
    simp [hmem, hout]

/-- A RELEASE removes no record but the system's (R76). -/
theorem releaseOrder_keepsKeys : KeepsKeys fun s => (releaseOrder s).1 := by
  intro s
  simp only [releaseOrder]
  split
  · exact .refl _
  split
  · exact .refl _
  · intro l n hl hmem
    rw [removeIdent_list]
    exact (mem_dropIdent_of_ne (lockIdent_ne_of_key hl (by simp)) _).mpr hmem

theorem proveOrder_list (p : Bool × Bool) (s : State) : (proveOrder p s).1.env.list = s.env.list := by
  unfold proveOrder
  split
  · simp only []
    split <;> rfl
  · rfl

/-- An order keeps the key records that its owner keeps, whether it is taken, refused or ignored. -/
theorem takeOrder_keepsKeys {α : Type} (o : Order) (parse : List Byte → Option α) {act : α → State → State × Code}
    (hact : ∀ a, KeepsKeys fun s => (act a s).1) : KeepsKeys (takeOrder o parse act) := by
  intro s
  obtain ⟨hheard, -⟩ := hearOrder_parts o s
  rw [← hheard]
  cases ht : orderTaken o s with
  | false => rw [takeOrder_ignored ht]; exact .refl _
  | true =>
    cases hp : parse o.args with
    | none => rw [takeOrder_bad ht hp]; exact .refl _
    | some a => rw [takeOrder_good ht hp]; exact hact a (hearOrder o s)

/-- An owner that acts on the core alone leaves the list. -/
theorem takeOrder_onCore_keepsKeys {α : Type} (o : Order) (parse : List Byte → Option α)
    (f : α → Env → Core → Core × Code) : KeepsKeys (takeOrder o parse (onCore f)) :=
  takeOrder_keepsKeys o parse fun _ _ => .refl _

/-- Only LOCK, UNLOCK and RELEASE touch the list, and they leave the keys' records. The cases stand in the order of the
kinds' codes (12.3): 8 to 10 are these three, 13 is PROVE, and the last is a code without a kind. -/
theorem takeKind_keepsKeys (kind : Byte) (o : Order) : KeepsKeys (takeKind kind o) := by
  unfold takeKind
  split
  case h_8 => exact takeOrder_keepsKeys _ _ fun k => lockOrder_keepsKeys k o.console.toNat
  case h_9 => exact takeOrder_keepsKeys _ _ fun k => unlockOrder_keepsKeys k o.console.toNat
  case h_10 => exact takeOrder_keepsKeys _ _ fun _ => releaseOrder_keepsKeys
  case h_13 => exact takeOrder_keepsKeys _ _ fun p s => .ofEq (proveOrder_list p s)
  case h_14 => exact takeOrder_keepsKeys _ _ fun _ _ => .refl _
  all_goals exact takeOrder_onCore_keepsKeys _ _ _

/-- Every row of an order is the order of the kind whose code 12.3 gives it. -/
theorem exec_order {c : Instr} (h : (orderCarried c).isSome = true) (s : State) :
    ∃ kind o, exec c s = run (takeKind kind o) s := by
  cases c with
  | point o => exact ⟨1, o, rfl⟩
  | hold o => exact ⟨2, o, rfl⟩
  | brake o => exact ⟨3, o, rfl⟩
  | stow o => exact ⟨4, o, rfl⟩
  | unstow o => exact ⟨5, o, rfl⟩
  | quiet o => exact ⟨6, o, rfl⟩
  | wake o => exact ⟨7, o, rfl⟩
  | lock o => exact ⟨8, o, rfl⟩
  | unlock o => exact ⟨9, o, rfl⟩
  | release o => exact ⟨10, o, rfl⟩
  | heat o => exact ⟨11, o, rfl⟩
  | clear o => exact ⟨12, o, rfl⟩
  | prove o => exact ⟨13, o, rfl⟩
  | undefinedOrderKind console payload => exact ⟨kindAt payload, orderAt console payload, rfl⟩
  | _ => simp [orderCarried] at h

/-- The settling leaves the list that a command's work gives, and in reset the list stands (R183). -/
theorem work_keepsKeys {f : State → State} (hf : KeepsKeys f) : KeepsKeys (work f) := by
  intro s
  cases hr : s.inReset with
  | true => rw [work_reset f s hr]; exact .refl _
  | false => rw [work_live f s hr, settle_env]; exact hf s

/-- Settles O51: a taken key puts or drops the one record of its identity, by the cases of R73; and no owner of an order
touches the identity of a key. -/
theorem keyDecidesItsRecord : Obligations.KeyDecidesItsRecord := by
  refine ⟨fun n a s hlive ha hheld => ?_, fun c s t hc ht => ?_⟩
  · intro kind mine
    refine ⟨_, (exec_keyTaken n s).trans (run_live _ s hlive), ?_⟩
    rw [settle_env, takeKey_ready ha hheld]
    refine ⟨?_, fun hlevel => ?_, fun hlevel => ?_, fun l hl => settleKey_others hl kind _ _⟩
    · rw [settleKey_inputs]
      exact keyNoted_taken n s.env.inputs
    · rw [settleKey_list, hlevel]
      exact dropIdent_key n s.env.list
    · rw [settleKey_list, if_pos hlevel, withInputs_list]
      refine ⟨fun hnone => ?_, fun r hr => ⟨fun hsame => ?_, fun hother => ?_⟩⟩
      · exact putOwned_absent ((findIdent_key n _).trans hnone)
      · exact (putOwned_sameKind (o := .key n) ((findIdent_key n _).trans hr) hsame).trans (settleIdent_key n _)
      · rw [putOwned_otherKind (o := .key n) ((findIdent_key n _).trans hr) hother]
        exact congrArg (· ++ _) (dropIdent_key n _)
  · obtain ⟨kind, o, hexec⟩ := exec_order hc s
    rw [hexec, run_eq] at ht
    cases ht
    exact work_keepsKeys (takeKind_keepsKeys kind o) s

end Sys2Proof.Machine
end

section
/-! PROOFS. Rules about single operations of the blocks: what a command on a live station answers, and what the axis controller's operations make of one axis record and leave of the rest (R4, R5, R8, R24, R25). -/

namespace Sys2Proof.Machine

/-! ## A command and its work -/

/-- The three rows of the reset, which reach a station in reset as well (R183, R184). -/
def isResetRow : Instr → Bool
  | .resetAsserted _ _ _ | .supplyFailure _ _ _ _ | .startInstant => true
  | _ => false

/-- The work of every other row on a station that is not held in reset. -/
def workOf : Instr → State → State
  | .point o => takePoint o
  | .hold o => takeHoldOrder o
  | .brake o => takeBrake o
  | .stow o => takeStow o
  | .unstow o => takeUnstow o
  | .quiet o => takeQuiet o
  | .wake o => takeWake o
  | .lock o => takeLock o
  | .unlock o => takeUnlock o
  | .release o => takeReleaseOrder o
  | .heat o => takeHeat o
  | .clear o => takeClear o
  | .prove o => takeProve o
  | .undefinedOrderKind console payload => takePayload console payload
  | .peerBeacon origin payload => takeBeacon origin payload
  | .ownNumberBeacon => onBlocks hearDuplicate
  | .discardedFrame f => takeFrame f
  | .stray => onBlocks discard
  | .transmissionStart gap => fun s => onBlocks (fun e k => startTransmission e s.slot gap k) s
  | .lostArbitration word => onBlocks fun e k => { k with line := loseArbitration e word k.line }
  | .abort => onBlocks fun _ k => { k with line := beginBreak k.line }
  | .breakEnd => onBlocks fun _ => endBreak
  | .restTimerExpiry => onBlocks fun _ k => { k with line := endRest k.line }
  | .beaconComplete => onBlocks completeBeacon
  | .duplicateTimerExpiry => onBlocks endDuplicate
  | .isolationTimerExpiry => onBlocks endIsolation
  | .beaconIntervalDue => onBlocks takeDue
  | .noiseDecay => onBlocks fun _ => decayNoise
  | .peerStale n => markStale n
  | .peerExpiry n => expirePeer n
  | .controlInterval x => controlInterval x
  | .onSourceSet => onBlocks fun _ => setOnSource
  | .followTimeout i => onBlocks fun e => followTimeout e i
  | .brakeReleasedFeedback i =>
    fun s => onBlocks (fun e => takeReleased e i) (withInputs (withBrake i true s.env.inputs) s)
  | .brakeEngagedFeedback i =>
    fun s => onBlocks (fun e => takeEngaged e i) (withInputs (withBrake i false s.env.inputs) s)
  | .brakeTimeout i => onBlocks fun e => brakeTimeout e i
  | .brakeMismatch i => onBlocks fun e => brakeMismatch e i
  | .idleBrakeExpiry i => onBlocks fun e => idleExpiry e i
  | .encoderRecovered i => onBlocks fun _ => recoverEncoder i
  | .limitSwitch i upper => limitSwitch i upper
  | .ampFaultInput => ampFault
  | .pinInputTaken p => takePin p
  | .pinTimeout => onBlocks pinExpiry
  | .releaseHoldExpiry => onBlocks endHold
  | .wakeSettleEnd => onBlocks endSettle
  | .anemometerPulse => fun s => { s with env := { s.env with wind := countPulse s.env.wind } }
  | .binEnd lost => binEndWork lost
  | .gustValid lost => binEndWhere (fun s => gustFalls s.env.wind) lost
  | .blockEnd lost => binEndWhere (fun s => blockFalls s.env.wind) lost
  | .stallExpiry lost => binEndWhere stallFalls lost
  | .windProofVerdict lost => binEndWhere (verdictFalls lost) lost
  | .graceExpiry => graceWork
  | .settleIntervalEnd => onBlocks endSettleInterval
  | .fillTimeEnd => onBlocks endFill
  | .stowWaitLimit => onBlocks waitLimit
  | .keyTaken n => takeKey n
  | .recordWriteEnd => fun s => { s with store := endWrite s.env.list s.store }
  | .pollRound a => onBlocks fun e => pollRound e a
  | .sensorFault x => onBlocks fun e => sensorFault e x
  | .wetChange => onBlocks takeWet
  | .wetMemoryExpiry => onBlocks endWetMemory
  | .cycleStart z => onBlocks fun e => cycleStart e z
  | .onTimeEnd z => onBlocks fun e => onTimeEnd e z
  | .zoneFeedbackTimeout z => onBlocks fun e => zoneFault e z
  | .feedbackProofVerdict => onBlocks feedbackVerdict
  | .sectionLoaded bytes => loadSection bytes
  | .configurationComplete => completeConfiguration
  | .resetAsserted _ _ _ | .supplyFailure _ _ _ _ | .startInstant => id

/-- Every row but the reset's answers its work, done on a station that is not held in reset. -/
theorem exec_work {i : Instr} (h : isResetRow i = false) (s : State) : exec i s = .next (work (workOf i) s) := by
  cases i with
  | resetAsserted _ _ _ => simp [isResetRow] at h
  | supplyFailure _ _ _ _ => simp [isResetRow] at h
  | startInstant => simp [isResetRow] at h
  | _ => rfl

/-- On a live station every row but the reset's answers its work, settled. -/
theorem exec_live {i : Instr} {s : State} (h : isResetRow i = false) (hlive : Live s) :
    exec i s = .next (settle (intervalOf s) (workOf i s)) := by rw [exec_work h, work_live _ s hlive]

/-! ## A frame and the row it spells (R114) -/

/-- What an order's payload spells is taken as that row. -/
theorem workOf_rowOfPayload (console : Byte) (payload : List Byte) :
    workOf (rowOfPayload console payload) = takePayload console payload := by
  unfold rowOfPayload rowOfKind takePayload takeKind
  split <;> simp_all [workOf, takePayload, takeKind]

theorem isResetRow_rowOfPayload (console : Byte) (payload : List Byte) :
    isResetRow (rowOfPayload console payload) = false := by
  unfold rowOfPayload rowOfKind
  split <;> rfl

/-- An intact frame has the effect of the row that it spells. -/
theorem exec_rowOf (i : Instr) (s : State) : exec (rowOf i) s = exec i s := by
  have payload (console : Byte) (p : List Byte) :
      exec (rowOfPayload console p) s = .next (work (takePayload console p) s) := by
    rw [exec_work (isResetRow_rowOfPayload console p), workOf_rowOfPayload]
  cases i with
  | undefinedOrderKind console p => exact payload console p
  | discardedFrame f =>
    simp only [rowOf]
    split
    · rfl
    rename_i hi
    simp only [Bool.not_eq_false] at hi
    split
    · rename_i hb
      rw [exec_work rfl, exec_work rfl, workOf, workOf, work, work, takeFrame_beacon f s hi hb]
    split
    · rename_i ho
      rw [payload, exec_work rfl, workOf, work, work, takeFrame_order f s hi ho]
    · rfl
  | _ => rfl

/-- A row that is no other row's frame: an undefined kind has no defined code, and a discarded frame is no beacon and no
order. -/
def Plain : Instr → Prop
  | .undefinedOrderKind _ p => orderKindDefined (kindAt p) = false
  | .discardedFrame f => frameIntact f = false ∨ (¬kindOfFrame f = beaconKind ∧ ¬kindOfFrame f = orderKind)
  | _ => True

theorem plain_rowOfPayload (console : Byte) (p : List Byte) : Plain (rowOfPayload console p) := by
  unfold rowOfPayload rowOfKind
  split
  case h_14 h1 h2 h3 h4 h5 h6 h7 h8 h9 h10 h11 h12 h13 =>
    show orderKindDefined (kindAt p) = false
    simp only [orderKindDefined, Bool.and_eq_false_iff, decide_eq_false_iff_not]
    by_contra hk
    simp only [not_or, not_not] at hk
    obtain ⟨hlo, hhi⟩ := hk
    interval_cases hn : (kindAt p).toNat <;> simp_all
  all_goals trivial

theorem plain_rowOf (i : Instr) : Plain (rowOf i) := by
  cases i with
  | undefinedOrderKind console p => exact plain_rowOfPayload console p
  | discardedFrame f =>
    simp only [rowOf]
    split
    · exact .inl ‹_›
    split
    · trivial
    split
    · exact plain_rowOfPayload _ _
    · exact .inr ⟨‹_›, ‹_›⟩
  | _ => trivial

/-- A plain discarded frame is noise, or nothing (R112, R114). -/
theorem takeFrame_plain {f : RawFrame} (h : Plain (.discardedFrame f)) (s : State) :
    takeFrame f s = { s with core := discard s.env s.core } ∨ takeFrame f s = s := by
  cases hi : frameIntact f with
  | false => exact .inl (takeFrame_noise f s hi)
  | true =>
    obtain hn | ⟨hb, ho⟩ := h
    · exact absurd (hi.symm.trans hn) (by decide)
    · exact .inr (takeFrame_other f s hi hb ho)

/-! ## One axis's record and the other's -/

/-- A stop request to an axis (R4). -/
def stoppedAxis (r : AxisRec) : AxisRec :=
  if isMoving r = true then
    { r with
      state := .stopping, target := .none, idleTimer := none, engaging := decide (r.v = 0),
      brakeTimer := if r.v = 0 then some 0 else none, brakeSeen := false }
  else r

/-- An axis without its release pending mark and the target that stands with it. -/
def unpended (r : AxisRec) : AxisRec :=
  if r.releasePending = true then { r with releasePending := false, target := .none } else r

/-- A moving axis holds where it is; `idle` is what an idle-brake timer restarts at (R8, R24). -/
def heldAxis (idle : Option Nat) (r : AxisRec) : AxisRec :=
  if isMoving r = true then { r with target := .hold r.x, idleTimer := if r.state = .active then idle else none } else r

@[simp] theorem enterStopping_axis (i : Axis) (k : Core) :
    getAxis (enterStopping i k) i = stoppedAxis (getAxis k i) := by
  unfold enterStopping stoppedAxis
  simp only []
  split
  · rw [endRange_axis, getAxis_putAxis]
  · rfl

@[simp] theorem enterStopping_other (i : Axis) (k : Core) :
    getAxis (enterStopping i k) (otherAxis i) = getAxis k (otherAxis i) := by
  unfold enterStopping
  simp only []
  split
  · rw [endRange_axis, getAxis_putAxis_other]
  · rfl

@[simp] theorem clearPending_axis (i : Axis) (k : Core) : getAxis (clearPending i k) i = unpended (getAxis k i) := by
  unfold clearPending unpended
  simp only []
  split
  · rw [getAxis_putAxis]
  · rfl

@[simp] theorem clearPending_other (i : Axis) (k : Core) :
    getAxis (clearPending i k) (otherAxis i) = getAxis k (otherAxis i) := by
  unfold clearPending
  simp only []
  split
  · rw [getAxis_putAxis_other]
  · rfl

@[simp] theorem takeHold_axis (i : Axis) (k : Core) :
    getAxis (takeHold i k) i = heldAxis (newIdleTimer k) (getAxis k i) := by
  unfold takeHold heldAxis
  simp only []
  split
  · rw [endRange_axis, getAxis_putAxis]
  · rfl

@[simp] theorem takeHold_other (i : Axis) (k : Core) :
    getAxis (takeHold i k) (otherAxis i) = getAxis k (otherAxis i) := by
  unfold takeHold
  simp only []
  split
  · rw [endRange_axis, getAxis_putAxis_other]
  · rfl

@[simp] theorem endRange_stow (i : Axis) (k : Core) : (endRange i k).stow = k.stow := by cases i <;> simp [endRange]
@[simp] theorem endRange_fee (i : Axis) (k : Core) : (endRange i k).fee = k.fee := by cases i <;> simp [endRange]
@[simp] theorem endRange_heat (i : Axis) (k : Core) : (endRange i k).heat = k.heat := by cases i <;> simp [endRange]

@[simp] theorem enterStopping_stow (i : Axis) (k : Core) : (enterStopping i k).stow = k.stow := by
  unfold enterStopping; simp only []; split <;> simp
@[simp] theorem enterStopping_fee (i : Axis) (k : Core) : (enterStopping i k).fee = k.fee := by
  unfold enterStopping; simp only []; split <;> simp
@[simp] theorem clearPending_stow (i : Axis) (k : Core) : (clearPending i k).stow = k.stow := by
  unfold clearPending; simp only []; split <;> simp
@[simp] theorem clearPending_fee (i : Axis) (k : Core) : (clearPending i k).fee = k.fee := by
  unfold clearPending; simp only []; split <;> simp
@[simp] theorem takeHold_stow (i : Axis) (k : Core) : (takeHold i k).stow = k.stow := by
  unfold takeHold; simp only []; split <;> simp
@[simp] theorem takeHold_fee (i : Axis) (k : Core) : (takeHold i k).fee = k.fee := by
  unfold takeHold; simp only []; split <;> simp

/-- An operation on one axis, done to both. -/
theorem both_axes {f : Axis → Core → Core} {g : AxisRec → AxisRec} {k : Core}
    (own : ∀ i k', k'.stow = k.stow → getAxis (f i k') i = g (getAxis k' i))
    (other : ∀ i k', getAxis (f i k') (otherAxis i) = getAxis k' (otherAxis i)) (hs : (f .az k).stow = k.stow)
    (i : Axis) :
    getAxis (f .el (f .az k)) i = g (getAxis k i) := by
  cases i
  · exact (other .el _).trans (own .az k rfl)
  · exact (own .el _ hs).trans (congrArg g (other .az k))

theorem enterStopping_both (k : Core) (i : Axis) :
    getAxis (enterStopping .el (enterStopping .az k)) i = stoppedAxis (getAxis k i) :=
  both_axes (fun i k' _ => enterStopping_axis i k') enterStopping_other (by simp) i

theorem clearPending_both (k : Core) (i : Axis) :
    getAxis (clearPending .el (clearPending .az k)) i = unpended (getAxis k i) :=
  both_axes (fun i k' _ => clearPending_axis i k') clearPending_other (by simp) i

theorem takeHold_both (k : Core) (i : Axis) :
    getAxis (takeHold .el (takeHold .az k)) i = heldAxis (newIdleTimer k) (getAxis k i) :=
  both_axes (fun i k' hs => by rw [takeHold_axis, newIdleTimer, newIdleTimer, hs]) takeHold_other (by simp) i

theorem stoppedAxis_atRest (r : AxisRec) : isMoving (stoppedAxis r) = false := by
  unfold stoppedAxis
  split
  · rfl
  · rename_i h
    simpa using h

theorem unpended_state (r : AxisRec) : (unpended r).state = r.state := by unfold unpended; split <;> rfl
theorem unpended_pending (r : AxisRec) : (unpended r).releasePending = false := by
  unfold unpended
  split
  · rfl
  · rename_i h
    simpa using h

end Sys2Proof.Machine
end

section
/-! PROOFS. What the blocks' operations keep, said once for every predicate on the blocks that single writes keep: so that protection (R26), the class summary (R172) and the frames of the blocks each need their own writes alone. -/

namespace Sys2Proof.Machine

/-! ## Predicates that the blocks' own operations keep -/

/-- The heat mode and the sensors' readings of the heater unit are the same. -/
structure SensorsSame (h h' : Heater) : Prop where
  mode : h'.mode = h.mode
  ambient : h'.ambient = h.ambient
  zones : ∀ z, (fourGet h'.zones z).reading = (fourGet h.zones z).reading

theorem SensorsSame.refl (h : Heater) : SensorsSame h h := ⟨rfl, rfl, fun _ => rfl⟩

/-- A predicate on the blocks, `b` standing for a blocking record held, that is kept by every write the blocks make to
themselves and to one another. With `b` such a write puts no resting axis in motion, and a list that begins to block
finds both axes at rest (R26). -/
structure Closed (P : Bool → Core → Prop) : Prop where
  fee : ∀ {b k} f, P b k → P b { k with fee := f }
  line : ∀ {b k l}, l.noise = k.line.noise → lineTimers l = lineTimers k.line → P b k → P b { k with line := l }
  cond : ∀ {b k} c st, P b k → P b { k with cond := setCond c st k.cond }
  notices : ∀ {b k} n, P b k → P b { k with cond := { k.cond with notices := n } }
  stow : ∀ {b k u}, u.causes = k.stow.causes → P b k → P b { k with stow := u }
  heat : ∀ {b k h}, SensorsSame k.heat h → P b k → P b { k with heat := h }
  flags : ∀ {b k} d o n, P b k → P b { k with axes := { k.axes with derating := d, onSource := o, onSourceTimer := n } }
  axis : ∀ {b k} i {r}, (b = true → isMoving (getAxis k i) = false → isMoving r = false) → P b k → P b (putAxis k i r)
  rebase : ∀ {b b' k}, (b' = true → b = false → isMoving k.axes.az = false ∧ isMoving k.axes.el = false) →
    P b k → P b' k

theorem lowerZone_reading (period new : Nat) (z : Zone) : (lowerZone period new z).reading = z.reading := by
  unfold lowerZone
  split <;> rfl

variable {P : Bool → Core → Prop} {b : Bool} {k : Core} {e : Env}

namespace Closed
variable (hP : Closed P)
include hP

/-- A record that keeps its axis's state. -/
theorem sameState (i : Axis) {r : AxisRec} (hr : r.state = (getAxis k i).state) (h : P b k) : P b (putAxis k i r) :=
  hP.axis i (fun _ => (isMoving_of_state hr).trans) h

/-- Both records at once, each keeping its axis's state. -/
theorem bothAxes {az el : AxisRec} (ha : az.state = k.axes.az.state) (hel : el.state = k.axes.el.state) (h : P b k) :
    P b { k with axes := { k.axes with az := az, el := el } } :=
  hP.sameState (k := putAxis k .az az) .el hel (hP.sameState .az ha h)

/-! ## Conditions, requests, waking -/

theorem request (p : Priority) (h : P b k) : P b (request p k) := hP.line rfl rfl h

theorem wakeEvent (h : P b k) : P b (wakeEvent k) := by
  unfold Machine.wakeEvent
  split
  · exact hP.bothAxes (k := { k with stow := { k.stow with park := .waking, settleTimer := some 0 } }) rfl rfl
      (hP.stow rfl h)
  · exact h

theorem frames (f : Frame → Frame) (h : P b k) : P b { k with line := { k.line with frame := k.line.frame.map f } } :=
  hP.line rfl rfl h

theorem setNotice (c : Cls) (h : P b k) : P b (setNotice c k) := by
  have h1 := hP.notices (k.cond.notices ||| classBit c) (hP.frames (keepNotice c) h)
  exact hP.request .urgent h1

theorem raiseCond (c : Cond) (h : P b k) : P b (raiseCond c k) := by
  unfold Machine.raiseCond
  split
  · exact h
  · refine hP.wakeEvent ?_
    split
    · exact hP.setNotice _ (hP.cond c .active h)
    · exact hP.cond c .active h

theorem endCond (c : Cond) (h : P b k) : P b (endCond c k) := by
  unfold Machine.endCond
  split
  · exact hP.cond c .latched h
  · exact h

theorem syncCond (c : Cond) (p : Bool) (h : P b k) : P b (syncCond c p k) := by
  unfold Machine.syncCond
  split
  · exact hP.raiseCond c h
  · exact hP.endCond c h

theorem clearLatched (cs : BitVec 6) (h : P b k) : P b { k with cond := clearLatched cs k.cond } := by
  unfold Machine.clearLatched
  refine foldl_keeps (fun u => P b { k with cond := u }) _ allConds (fun u c hu => ?_) k.cond h
  split
  · exact hP.cond (k := { k with cond := u }) c .clear hu
  · exact hu

/-! ## Stow state -/

theorem syncStowFailed (h : P b k) : P b (syncStowFailed k) := hP.syncCond _ _ h

theorem setStow (n : StowState) (h : P b k) : P b (setStow n k) := by
  unfold Machine.setStow
  split
  · exact h
  · refine hP.syncStowFailed ?_
    have h1 := hP.request .urgent (hP.bothAxes
      (k := { k with stow := enterStow n k.stow })
      (az := (if n = .clear then idleAtClear else idleStopped) k.axes.az)
      (el := (if n = .clear then idleAtClear else idleStopped) k.axes.el)
      (by split <;> rfl) (by split <;> rfl) (hP.stow rfl h))
    split
    · exact hP.wakeEvent h1
    · exact h1

theorem settlePinFeedback (h : P b k) : P b (settlePinFeedback e k) := by
  unfold Machine.settlePinFeedback
  split
  · exact hP.endCond _ h
  · exact h

theorem pinFault (h : P b k) : P b (pinFault e k) := hP.settlePinFeedback (hP.setStow _ (hP.raiseCond _ h))

/-! ## Heater unit and feeder account -/

theorem applyAllowance (h : P b k) : P b (applyAllowance e k) := by
  refine hP.heat ⟨rfl, rfl, fun z => ?_⟩ h
  rw [fourGet_fourOf]
  exact lowerZone_reading ..

theorem admitClaim (f : Bool) (h : P b k) : P b (admitClaim f k) := by
  have h1 := hP.request .urgent
    (hP.fee { k.fee with claim := { k.fee.claim with state := .active, forced := f } } h)
  unfold Machine.admitClaim
  simp only []
  split
  · split
    · exact hP.setStow _ (hP.raiseCond _ h1)
    · exact hP.setStow _ h1
  · split
    · exact hP.raiseCond _ h1
    · exact h1

theorem overcommitTest (h : P b k) : P b (overcommitTest e k).1 := by
  unfold Machine.overcommitTest
  split
  · simp only []
    split
    · exact hP.fee _ (hP.fee _ (hP.raiseCond _ h))
    · exact hP.raiseCond _ h
  · exact hP.endCond _ h

theorem computePass (h : P b k) : P b (computePass e k).1 := by
  have h2 := hP.overcommitTest (e := e) (hP.fee (withFigures e k).fee h)
  unfold Machine.computePass
  simp only []
  split
  · exact hP.admitClaim _ (hP.applyAllowance (hP.fee _ h2))
  · exact hP.applyAllowance (hP.fee _ h2)

theorem computeTimes (n : Nat) : ∀ {k : Core}, P b k → P b (computeTimes e n k) := by
  induction n with
  | zero => exact id
  | succ n ih =>
    intro k h
    unfold Machine.computeTimes
    simp only []
    split
    · exact ih (hP.computePass h)
    · exact hP.computePass h

theorem compute (h : P b k) : P b (compute e k) := by
  unfold Machine.compute
  split
  · exact hP.computeTimes 3 h
  · exact hP.applyAllowance (hP.fee _ h)

theorem testAdmission (h : P b k) : P b (testAdmission e k) := by
  unfold Machine.testAdmission
  split
  · exact hP.compute (hP.admitClaim _ h)
  · exact h

theorem dropClaim (h : P b k) : P b (dropClaim e k) :=
  hP.compute (hP.endCond _ (hP.request _ (hP.fee _ h)))

theorem withdrawWaiting (h : P b k) : P b (withdrawWaiting e k) := by
  unfold Machine.withdrawWaiting
  split
  · exact hP.dropClaim h
  · exact h

theorem withdrawClaim (h : P b k) : P b (withdrawClaim e k) := by
  unfold Machine.withdrawClaim
  split
  · exact h
  · exact hP.dropClaim h

theorem requestClaim (c : ClaimKind) (x y : Bool) (h : P b k) : P b (requestClaim e c x y k) := by
  unfold Machine.requestClaim
  split
  · exact h
  split
  · split
    · have h1 := hP.fee { k.fee with claim := sizedClaim e k x y { noClaim with kind := c, state := .waiting } }
        (hP.frames forgetClaim h)
      exact hP.compute (hP.request .urgent h1)
    · exact hP.compute (hP.fee _ h)
    · unfold Machine.convertClaim
      split
      · exact h
      · exact hP.compute (hP.fee _ h)
  · exact hP.withdrawWaiting h

theorem recomputeClaim (h : P b k) : P b (recomputeClaim e k) := by
  unfold Machine.recomputeClaim
  split
  · simp only []
    split
    · exact hP.compute (hP.fee _ h)
    · split
      · exact hP.setStow _ (hP.dropClaim h)
      · exact hP.dropClaim h
  · exact h

theorem evaluateHeat (h : P b k) : P b (evaluateHeat e k) := by
  unfold Machine.evaluateHeat
  split
  · have h1 : P b { k with heat := formDemands e k } :=
      hP.heat ⟨rfl, rfl, fun z => by rw [formDemands, fourGet_fourOf]⟩ h
    simp only []
    split
    · exact hP.applyAllowance h1
    · exact hP.compute (hP.fee _ h1)
  · exact h

/-! ## Axes -/

theorem endRange (i : Axis) (h : P b k) : P b (endRange i k) := by
  cases i
  · exact hP.endCond _ h
  · exact h

theorem clearPending (i : Axis) (h : P b k) : P b (clearPending i k) := by
  unfold Machine.clearPending
  simp only []
  split
  · exact hP.sameState i rfl h
  · exact h

theorem takeHold (i : Axis) (h : P b k) : P b (takeHold i k) := by
  unfold Machine.takeHold
  simp only []
  split
  · exact hP.endRange i (hP.sameState i rfl h)
  · exact h

theorem enterStopping (i : Axis) (h : P b k) : P b (enterStopping i k) := by
  unfold Machine.enterStopping
  simp only []
  split
  · exact hP.endRange i (hP.axis i (fun _ _ => rfl) h)
  · exact h

theorem stowAxisFault (i : Axis) (h : P b k) : P b (stowAxisFault i k) := by
  unfold Machine.stowAxisFault
  split
  · split
    · exact hP.takeHold _ h
    · exact h
  · exact hP.setStow _ (hP.takeHold _ h)
  · exact hP.setStow _ (hP.takeHold _ h)
  · exact hP.setStow _ h
  · exact h

theorem faultAxis (i : Axis) (h : P b k) : P b (faultAxis e i k) := by
  unfold Machine.faultAxis
  split
  · exact h
  · exact hP.syncStowFailed (hP.withdrawWaiting (hP.clearPending _ (hP.stowAxisFault i
      (hP.endRange i (hP.axis i (fun _ _ => rfl) h)))))

theorem enterUnbraking (i : Axis) (t : Target) (hb : b = false) (h : P b k) : P b (enterUnbraking e i t k) := by
  have h1 := hP.axis i
    (r := { getAxis k i with
      state := .unbraking, target := t, releasePending := false, brakeTimer := some 0, brakeSeen := false })
    (fun ht => absurd (hb.symm.trans ht) (by decide)) h
  unfold Machine.enterUnbraking
  simp only []
  split
  · exact hP.faultAxis i h1
  · exact h1

theorem requestRelease (i : Axis) (t : Target) (h : P (blocking e.list) k) :
    P (blocking e.list) (requestRelease e i t k) := by
  unfold Machine.requestRelease
  split
  · exact hP.sameState i rfl h
  · rename_i hp
    exact hP.enterUnbraking i t (not_blocking_of_free rfl (by simpa using hp)) h

theorem giveTarget (i : Axis) (t : Target) (h : P (blocking e.list) k) : P (blocking e.list) (giveTarget e i t k) := by
  have h0 := hP.endRange i h
  have same {r : AxisRec} (hr : r.state = (getAxis k i).state) :
      P (blocking e.list) (Machine.putAxis (Machine.endRange i k) i r) :=
    hP.sameState i (hr.trans (getAxis_endRange i k i).symm) h0
  unfold Machine.giveTarget
  simp only []
  split
  · exact hP.requestRelease i t h0
  · exact same rfl
  · exact same rfl
  · split
    · exact same rfl
    · rename_i hp
      have hfree : blocking e.list = false :=
        not_blocking_of_free (k := k) rfl (by simp only [Bool.or_eq_true, not_or] at hp; simpa using hp.2)
      exact hP.axis i (fun hb => absurd (hfree.symm.trans hb) (by decide)) h0
  · exact h0

theorem tryRelease (i : Axis) (h : P (blocking e.list) k) : P (blocking e.list) (tryRelease e i k) := by
  unfold Machine.tryRelease
  simp only []
  split
  · rename_i hc
    obtain ⟨-, -, hfree⟩ := hc
    exact hP.enterUnbraking i _ (not_blocking_of_free rfl hfree) h
  · exact h

theorem tryReleases (h : P (blocking e.list) k) : P (blocking e.list) (tryReleases e k) :=
  hP.tryRelease .el (hP.tryRelease .az h)

theorem returnAxis (i : Axis) (h : P b k) : P b (returnAxis e i k) := by
  unfold Machine.returnAxis
  simp only []
  split
  · exact hP.syncStowFailed (hP.axis i (fun _ _ => rfl) h)
  · exact h

theorem stopForLockout (h : P b k) : P b (stopForLockout e k) :=
  hP.withdrawClaim (hP.clearPending .el (hP.clearPending .az (hP.enterStopping .el (hP.enterStopping .az h))))

theorem holdForLockout (h : P b k) : P b (holdForLockout e k) := by
  have hold (i : Axis) {k : Core} (h : P b k) :
      P b (if isPointing (getAxis k i) = true then Machine.takeHold i k else k) := by
    split
    · exact hP.takeHold i h
    · exact h
  exact hP.withdrawWaiting (hP.clearPending .el (hP.clearPending .az (hold .el (hold .az h))))

/-! ## Stow unit -/

theorem stowElevation (h : P (blocking e.list) k) : P (blocking e.list) (stowElevation e k) := by
  unfold Machine.stowElevation
  split
  · exact hP.clearPending _ h
  · exact hP.giveTarget _ _ h

theorem stowClaim (h : P b k) : P b (stowClaim e k) := by
  unfold Machine.stowClaim
  simp only []
  split
  · exact hP.setStow _ (hP.requestClaim _ _ _ h)
  · exact hP.requestClaim _ _ _ h

theorem enterDemanded (h : P (blocking e.list) k) : P (blocking e.list) (enterDemanded e k) := by
  have h1 := hP.stowElevation (hP.clearPending .az (hP.takeHold .az (hP.setStow .demanded h)))
  unfold Machine.enterDemanded
  simp only []
  split
  · exact hP.stowClaim h1
  · exact h1

theorem demandStow (h : P (blocking e.list) k) : P (blocking e.list) (demandStow e k) := by
  unfold Machine.demandStow
  split
  · exact hP.setStow _ h
  split
  · exact hP.setStow _ h
  · exact hP.enterDemanded h

theorem arrivalTest (h : P b k) : P b (arrivalTest e k) := by
  unfold Machine.arrivalTest
  split
  · exact hP.withdrawWaiting (hP.setStow _ h)
  · exact h

theorem enterStowed (h : P b k) : P b (enterStowed k) := hP.enterStopping _ (hP.enterStopping _ (hP.setStow _ h))

theorem driveInTest (h : P b k) : P b (driveInTest k) := by
  unfold Machine.driveInTest
  split
  · exact hP.stow rfl h
  · exact h

theorem enterReleasing (h : P (blocking e.list) k) : P (blocking e.list) (enterReleasing e k) :=
  hP.driveInTest (hP.giveTarget _ _ (hP.giveTarget _ _ (hP.setStow _ h)))

theorem pinTests (h : P b k) : P b (pinTests e k) := by
  unfold Machine.pinTests
  split
  · split
    · split
      · exact hP.enterStowed h
      · exact hP.pinFault h
    · exact h
  · split
    · exact hP.setStow _ h
    · split
      · exact h
      · exact hP.pinFault h
  · split
    · split
      · exact hP.pinFault h
      · exact hP.setStow _ h
    · exact h
  · exact h

theorem pinExpiry (h : P b k) : P b (pinExpiry e k) := by
  unfold Machine.pinExpiry
  split
  · exact hP.pinFault h
  · exact h

theorem blockStow (h : P b k) : P b (blockStow k) := by
  unfold Machine.blockStow
  split
  case h_5 => exact h
  all_goals exact hP.setStow _ h

theorem holdElevation (h : P b k) : P b (holdElevation k) := by
  unfold Machine.holdElevation
  split
  · exact hP.takeHold _ h
  · exact h

theorem reevaluate (h : P (blocking e.list) k) : P (blocking e.list) (reevaluate e k) := by
  unfold Machine.reevaluate
  split
  · exact hP.setStow _ h
  split
  · exact hP.enterStowed h
  split
  · exact hP.holdElevation (hP.setStow _ h)
  split
  · exact hP.setStow _ h
  split
  · exact hP.setStow _ h
  · exact hP.enterDemanded h

theorem unblockStow (h : P (blocking e.list) k) : P (blocking e.list) (unblockStow e k) := by
  unfold Machine.unblockStow
  split
  · exact hP.reevaluate h
  · exact h

theorem takeCauses (o : Causes) (h : P (blocking e.list) k) : P (blocking e.list) (takeCauses e o k) := by
  unfold Machine.takeCauses
  split
  · split
    · exact h
    · exact hP.demandStow h
  · split
    · exact hP.setStow _ h
    · exact h
  · split
    · exact hP.setStow _ h
    · exact h
  · exact h

theorem abandonStow (h : P b k) : P b (abandonStow e k) :=
  hP.withdrawWaiting (hP.clearPending _ (hP.clearPending _ (hP.takeHold _ (hP.takeHold _ (hP.setStow _ h)))))

theorem actUnstow (h : P (blocking e.list) k) : P (blocking e.list) (actUnstow e k) := by
  unfold Machine.actUnstow
  split
  · exact hP.abandonStow h
  · exact hP.abandonStow h
  · exact hP.enterReleasing h
  · split
    · exact hP.enterReleasing h
    · exact hP.stow rfl h
  · split
    · exact hP.setStow _ h
    · exact h
  · exact h

theorem resumeAxes (h : P b k) : P b (resumeAxes k) := hP.bothAxes rfl rfl h

theorem endSettle (h : P (blocking e.list) k) : P (blocking e.list) (endSettle e k) := by
  unfold Machine.endSettle
  split
  · refine hP.tryReleases ?_
    have h1 := hP.resumeAxes
      (k := { k with stow := { k.stow with park := .run, settleTimer := none, pendingRelease := false } })
        (hP.stow rfl h)
    simp only []
    split
    · exact hP.enterReleasing h1
    · exact h1
  · exact h

theorem endHold (h : P b k) : P b (endHold e k) := by
  unfold Machine.endHold
  split
  · exact hP.stow rfl h
  · exact h

end Closed

/-! ## The arrival of a blocking record (R26) -/

/-- With `b` both axes are at rest. -/
def protectedBlocks (b : Bool) (k : Core) : Prop := b = true → isMoving k.axes.az = false ∧ isMoving k.axes.el = false

theorem closed_protectedBlocks : Closed protectedBlocks where
  fee _ h := h
  line _ _ h := h
  cond _ _ h := h
  notices _ h := h
  stow _ h := h
  heat _ h := h
  flags _ _ _ h := h
  axis i _ hr h := fun hb => by
    obtain ⟨haz, hel⟩ := h hb
    cases i
    · exact ⟨hr hb haz, hel⟩
    · exact ⟨haz, hr hb hel⟩
  rebase {b _ _} hb h := fun hb' => by
    cases b with
    | false => exact hb hb' rfl
    | true => exact h rfl

/-- A stop for a lockout leaves both axes at rest. -/
theorem stopForLockout_atRest (e : Env) (k : Core) :
    isMoving (stopForLockout e k).axes.az = false ∧ isMoving (stopForLockout e k).axes.el = false := by
  have hP := closed_protectedBlocks
  have hrest (i : Axis) : isMoving (getAxis (enterStopping .el (enterStopping .az k)) i) = false := by
    rw [enterStopping_both]
    exact stoppedAxis_atRest _
  have hstop : protectedBlocks true (enterStopping .el (enterStopping .az k)) := fun _ => ⟨hrest .az, hrest .el⟩
  exact hP.withdrawClaim (hP.clearPending .el (hP.clearPending .az hstop)) rfl

/-- A list that begins to block brings a blocking record that was not in it. -/
theorem arrives_of_blocks {old new : List Lock} (ho : blocking old = false) (hn : blocking new = true) :
    arrives isBlocking old new = true := by
  simp only [blocking, List.any_eq_true, List.any_eq_false] at ho hn
  obtain ⟨l, hl, hb⟩ := hn
  simp only [arrives, List.any_eq_true, Bool.and_eq_true, Bool.not_eq_true', List.contains_eq_mem,
    decide_eq_false_iff_not]
  exact ⟨l, hl, hb, fun hmem => ho l hmem hb⟩

namespace Closed
variable (hP : Closed P)
include hP

theorem handList {old : List Lock} (h : P (blocking old) k) : P (blocking e.list) (handList old e k) := by
  have h1 : P (blocking e.list) (if arrives isBlocking old e.list = true then Machine.stopForLockout e k else k) := by
    split
    · exact hP.rebase (fun _ _ => stopForLockout_atRest e k) (hP.stopForLockout h)
    · rename_i ha
      exact hP.rebase (fun hn ho => absurd (arrives_of_blocks ho hn) ha) h
  unfold Machine.handList
  simp only []
  generalize (if arrives isBlocking old e.list = true then Machine.stopForLockout e k else k) = k1 at h1 ⊢
  have h2 : P (blocking e.list)
      (if arrives isPointLock old e.list = true ∧ k1.stow.state = .clear then Machine.holdForLockout e k1 else k1) := by
    split
    · exact hP.holdForLockout h1
    · exact h1
  generalize
    (if arrives isPointLock old e.list = true ∧ k1.stow.state = .clear then Machine.holdForLockout e k1 else k1)
    = k2 at h2 ⊢
  have h3 : P (blocking e.list) (if blocking e.list = true then Machine.blockStow k2 else Machine.unblockStow e k2) :=
      by
    split
    · exact hP.blockStow h2
    · exact hP.unblockStow h2
  have h4 := hP.evaluateHeat (e := e) (hP.wakeEvent h3)
  refine hP.tryReleases ?_
  split
  · exact h4
  · exact hP.request _ h4

end Closed

/-! ## Commands -/

/-- The predicate holds of a state's blocks under its lockout list. -/
def Holds (P : Bool → Core → Prop) (s : State) : Prop := P (blocking s.env.list) s.core

/-- What single rows write beside the blocks' writes to one another: the line port whole, or but for the noise count, or
but for its timers; the stow unit with its causes; the heat mode; the heater unit whole; the feedback proof; the masks.
-/
inductive Write where
  | line
  | quietLine
  | timedLine
  | stow
  | mode
  | heat
  | proof
  | masks

/-- The predicate is kept by a write. -/
def Allows (P : Bool → Core → Prop) : Write → Prop
  | .line => ∀ b k l, P b k → P b { k with line := l }
  | .quietLine => ∀ b k l, l.noise = k.line.noise → P b k → P b { k with line := l }
  | .timedLine => ∀ b k l, lineTimers l = lineTimers k.line → P b k → P b { k with line := l }
  | .stow => ∀ b k u, P b k → P b { k with stow := u }
  | .mode => ∀ b k m, P b k → P b { k with heat := { k.heat with mode := m } }
  | .heat => ∀ b k h, h.mode = k.heat.mode → P b k → P b { k with heat := h }
  | .proof => ∀ b k p, P b k → P b { k with cond := { k.cond with proof := p } }
  | .masks => ∀ b k m a, P b k → P b { k with cond :=
      { k.cond with masks := m, alarmMask := a, settled := true, summary := summaryOf k.cond.states m } }

/-- The writes of a row beside those of `Closed`. -/
def writesOf : Instr → List Write
  | .point _ | .hold _ | .brake _ | .stow _ | .unstow _ | .quiet _ | .wake _ | .lock _ | .unlock _ | .release _
  | .clear _ | .undefinedOrderKind _ _ | .peerBeacon _ _ => [.line, .stow]
  | .heat _ => [.line, .stow, .mode]
  | .prove _ => [.line, .stow, .proof]
  | .noiseDecay => [.line]
  | .discardedFrame _ | .stray => [.timedLine]
  | .ownNumberBeacon | .breakEnd | .restTimerExpiry | .beaconComplete | .duplicateTimerExpiry
  | .configurationComplete => [.quietLine]
  | .isolationTimerExpiry => [.quietLine, .stow]
  | .peerStale _ | .peerExpiry _ | .binEnd _ | .gustValid _ | .blockEnd _ | .stallExpiry _ | .windProofVerdict _
  | .graceExpiry => [.stow]
  | .pollRound _ => [.heat]
  | .feedbackProofVerdict => [.proof]
  | .sectionLoaded _ => [.masks]
  | .controlInterval _ => [.line, .stow, .heat, .proof]
  | _ => []

namespace Closed
variable (hP : Closed P)
include hP
variable {s : State}

theorem followInterval (old : Nat) (h : P b k) : P b (followInterval old e k) := by
  have h1 : P b { k with line := { k.line with dueTaken := k.line.dueTaken && intervalReached e k } } :=
      hP.line rfl rfl h
  unfold Machine.followInterval
  simp only []
  split
  · exact hP.request _ h1
  · exact h1

theorem settle (old : Nat) (h : Holds P s) : Holds P (settle old s) := hP.followInterval old h

/-! ### The lockout list -/

theorem changeList (new : List Lock) (ms : List Mark) (h : Holds P s) : Holds P (changeList new ms s) := by
  unfold Machine.changeList
  split
  · exact h
  · exact hP.handList (old := s.env.list) (e := { s.env with list := new }) h

theorem removeIdent (i : Ident) (h : Holds P s) : Holds P (removeIdent i s) := by
  unfold Machine.removeIdent
  split
  · exact h
  · exact hP.changeList _ _ h

theorem takeKey (n : Fin 4) (h : Holds P s) : Holds P (takeKey n s) := by
  unfold Machine.takeKey
  split
  · exact h
  simp only []
  split
  · unfold settleKey
    split
    · exact hP.changeList _ _ h
    · exact hP.removeIdent _ h
  · exact h

theorem lockOrder (x : LockKind) (c : Nat) (h : Holds P s) : Holds P (lockOrder x c s).1 := by
  unfold Machine.lockOrder
  simp only []
  split
  · split
    · exact hP.changeList _ _ h
    · exact h
  · split
    · exact h
    split
    · exact h
    · exact hP.changeList _ _ h

theorem unlockOrder (x : LockKind) (c : Nat) (h : Holds P s) : Holds P (unlockOrder x c s).1 := by
  unfold Machine.unlockOrder
  simp only []
  split
  · exact h
  split
  · exact h
  · exact hP.changeList _ _ h

theorem releaseOrder (h : Holds P s) : Holds P (releaseOrder s).1 := by
  unfold Machine.releaseOrder
  split
  · exact h
  split
  · exact h
  · exact hP.removeIdent _ h

/-! ### Orders -/

theorem updateCauses (hu : Allows P .stow) (c : Causes) (h : P (blocking e.list) k) :
    P (blocking e.list) (updateCauses e c k) := by
  unfold Machine.updateCauses
  split
  · exact h
  · have h1 := hu _ _ (withCauses c k.stow) h
    simp only []
    split
    · exact hP.takeCauses _ h1
    · exact h1

theorem discard (hl : Allows P .timedLine) (h : P b k) : P b (discard e k) := by
  unfold Machine.discard countNoise
  split
  · have h1 := hl b k { k.line with noise := min noiseMax (k.line.noise + 1) } rfl h
    simp only []
    split
    · exact hP.raiseCond _ h1
    · exact h1
  · exact h

theorem hearOther (hl : Allows P .line) (hu : Allows P .stow) (h : P (blocking e.list) k) :
    P (blocking e.list) (hearOther e k) := by
  unfold Machine.hearOther
  split
  · exact hP.updateCauses hu _ (hP.endCond _ (hl _ _ { k.line with isolationTimer := some 0 } h))
  · exact h

theorem hearDuplicate (hl : Allows P .quietLine) (h : P b k) : P b (hearDuplicate e k) := by
  unfold Machine.hearDuplicate
  split
  · refine hP.raiseCond _ (hl _ _ _ ?_ h)
    unfold silence
    split <;> rfl
  · exact h

theorem hearOrder (o : Order) (hl : Allows P .line) (hu : Allows P .stow) (h : Holds P s) :
    Holds P (hearOrder o s) := by
  unfold Machine.hearOrder
  split
  · exact h
  split
  · exact hP.discard (fun b k l _ => hl b k l) h
  split
  · exact hP.hearOther hl hu h
  · exact h

theorem giveResult (o : Order) (c : Code) (h : Holds P s) : Holds P (giveResult o c s) := by
  show P (blocking s.env.list) (if stationScope o = true then Machine.request .normal s.core else s.core)
  split
  · exact hP.request _ h
  · exact h

/-- An order keeps what its reception and its owner keep. -/
theorem takeOrder {α : Type} (o : Order) (parse : List Byte → Option α) {act : α → State → State × Code}
    (hl : Allows P .line) (hu : Allows P .stow) (hact : ∀ a s, Holds P s → Holds P (act a s).1) (h : Holds P s) :
    Holds P (takeOrder o parse act s) := by
  have h1 := hP.hearOrder o hl hu h
  unfold Machine.takeOrder
  split
  · split
    · exact hP.giveResult o _ h1
    · exact hP.giveResult o _ (hact _ _ h1)
  · exact h1

theorem clearConditions (cs : BitVec 6) (h : P b k) : P b (clearConditions cs e k) := by
  unfold Machine.clearConditions
  simp only []
  split
  · exact hP.evaluateHeat (hP.clearLatched cs h)
  · exact hP.clearLatched cs h

theorem clearOrder (cs : BitVec 6) (h : P (blocking e.list) k) : P (blocking e.list) (clearOrder cs e k).1 := by
  have h1 := hP.clearConditions (e := e) cs h
  unfold Machine.clearOrder clearFailed
  simp only []
  split
  · split
    · exact hP.reevaluate (hP.returnAxis .el (hP.returnAxis .az h1))
    · exact hP.returnAxis .el (hP.returnAxis .az h1)
  · exact h1

theorem pointOrder (a : PointArgs) (h : P (blocking e.list) k) : P (blocking e.list) (pointOrder a e k).1 := by
  unfold Machine.pointOrder
  split
  · exact h
  · exact hP.requestClaim _ _ _ (hP.giveTarget _ _ (hP.giveTarget _ _ h))

theorem holdOrder (h : P b k) : P b (holdOrder e k).1 := by
  unfold Machine.holdOrder
  split
  · exact h
  · exact hP.withdrawWaiting (hP.clearPending .el (hP.clearPending .az (hP.takeHold .el (hP.takeHold .az h))))

theorem brakeOrder (h : P b k) : P b (brakeOrder e k).1 := by
  unfold Machine.brakeOrder
  split
  · exact h
  split
  · exact h
  · exact hP.withdrawWaiting (hP.clearPending .el (hP.clearPending .az (hP.enterStopping .el (hP.enterStopping .az h))))

theorem unstowOrder (hu : Allows P .stow) (h : P (blocking e.list) k) : P (blocking e.list) (unstowOrder e k).1 := by
  have h1 := hP.wakeEvent h
  unfold Machine.unstowOrder
  simp only []
  split
  · exact hP.actUnstow (hu _ _ _ h1)
  · exact h1

theorem quietOrder (h : P b k) : P b (quietOrder e k).1 := by
  unfold Machine.quietOrder
  split
  · exact hP.stow rfl h
  · exact h

theorem heatOrder (hm : Allows P .mode) (m : HeatMode) (h : P b k) : P b (heatOrder m e k).1 := by
  unfold Machine.heatOrder
  split
  · exact h
  · exact hP.evaluateHeat (hm _ _ m h)

omit hP in
theorem proveOrder (hp : Allows P .proof) (t : Bool × Bool) (h : Holds P s) : Holds P (proveOrder t s).1 := by
  have hproof := hp _ _ (some startFeedbackProof) h
  unfold Machine.proveOrder
  split
  · obtain ⟨w, f⟩ := t
    cases w <;> cases f <;> assumption
  · exact h

/-! ### The peer table and the wind watch -/

theorem handFeeder (h : P b k) : P b (handFeeder e k) := hP.compute (hP.syncCond _ _ h)

theorem recountWind (hu : Allows P .stow) (h : Holds P s) : Holds P (recountWind s) :=
  hP.updateCauses (e := { s.env with wind := _ }) hu _ h

theorem changePeers (hu : Allows P .stow) (l : List Peer) (w f : Bool) (h : Holds P s) :
    Holds P (changePeers l w f s) := by
  have h2 : Holds P (if w = true then Machine.recountWind { s with env := { s.env with peers := l } }
      else { s with env := { s.env with peers := l } }) := by
    split
    · exact hP.recountWind (s := { s with env := { s.env with peers := l } }) hu h
    · exact h
  unfold Machine.changePeers
  simp only []
  split
  · exact hP.handFeeder h2
  · exact h2

theorem takePeer (hu : Allows P .stow) (p : Peer) (h : Holds P s) : Holds P (takePeer p s) := by
  unfold Machine.takePeer
  split
  · unfold updatePeer
    split
    · exact hP.changePeers hu _ _ _ h
    · exact hP.changePeers (s := freeSlot s) hu _ _ _ (hP.endCond _ h)
  split
  · unfold admitPeer
    split
    · exact hP.changePeers hu _ _ _ h
    split
    · exact hP.changePeers hu _ _ _ h
    · exact hP.raiseCond _ h
  · exact h

theorem takeBeacon (hl : Allows P .line) (hu : Allows P .stow) (n : Byte) (l : List Byte) (h : Holds P s) :
    Holds P (takeBeacon n l s) := by
  unfold Machine.takeBeacon
  split
  · exact h
  split
  · exact hP.discard (fun b k l _ => hl b k l) h
  split
  · exact hP.hearDuplicate (fun b k l _ => hl b k l) h
  split
  · have h1 : Holds P { s with core := Machine.hearOther s.env s.core } := hP.hearOther hl hu h
    simp only []
    split
    · exact hP.takePeer hu _ h1
    · exact h1
  · exact h

theorem markStale (hu : Allows P .stow) (n : Nat) (h : Holds P s) : Holds P (markStale n s) := by
  unfold Machine.markStale
  split
  · exact h
  split
  · exact hP.changePeers hu _ _ _ h
  · exact h

theorem expirePeer (hu : Allows P .stow) (n : Nat) (h : Holds P s) : Holds P (expirePeer n s) := by
  unfold Machine.expirePeer
  split
  · exact h
  split
  · exact hP.changePeers (s := freeSlot s) hu _ _ _ (hP.endCond _ h)
  · exact h

theorem binConditions (lost : Nat) (h : P b k) : P b (binConditions e lost k) := by
  have hstall (c t : Nat) : P b (stallCause e c t k) := by
    unfold stallCause
    split
    · exact hP.endCond _ h
    split
    · exact hP.raiseCond _ h
    · exact h
  unfold Machine.binConditions proofCause
  simp only []
  split
  · exact hstall _ _
  · exact hP.endCond _ (hstall _ _)
  · exact hP.raiseCond _ (hstall _ _)

theorem takeGust (h : P b k) : P b (takeGust e k) := by
  unfold Machine.takeGust
  simp only []
  split
  · exact h
  · exact hP.recomputeClaim (hP.flags _ _ _ h)

theorem handWind (hu : Allows P .stow) (old : Vote) (h : P (blocking e.list) k) :
    P (blocking e.list) (handWind old e k) := by
  have h1 := hP.updateCauses hu (windCauses e.wind k.stow.causes) h
  unfold Machine.handWind
  refine hP.tryReleases (hP.takeGust ?_)
  split
  · exact h1
  · exact hP.request _ h1

theorem binEndWork (hu : Allows P .stow) (lost : Nat) (h : Holds P s) : Holds P (binEndWork lost s) := by
  unfold Machine.binEndWork
  split
  · exact h
  · exact hP.handWind (e := { s.env with wind := _ }) hu _ (hP.binConditions lost h)

theorem binEndWhere (hu : Allows P .stow) (falls : State → Bool) (lost : Nat) (h : Holds P s) :
    Holds P (binEndWhere falls lost s) := by
  unfold Machine.binEndWhere
  split
  · exact hP.binEndWork hu lost h
  · exact h

theorem graceWork (hu : Allows P .stow) (h : Holds P s) : Holds P (graceWork s) := by
  unfold Machine.graceWork
  split
  · exact hP.recountWind (s := { s with env := { s.env with wind := { s.env.wind with grace := none } } }) hu h
  · exact h

/-! ### The line port -/

theorem startTransmission (slot : ResultSlot) (gap : Nat) (h : P b k) : P b (startTransmission e slot gap k) := by
  unfold Machine.startTransmission
  split
  · split
    · exact hP.line rfl rfl h
    · exact h
  · exact h

end Closed

theorem repend_quiet (l : LinePort) : (repend l).noise = l.noise ∧ lineTimers (repend l) = lineTimers l := by
  unfold repend
  split <;> exact ⟨rfl, rfl⟩

theorem loseArbitration_quiet (e : Env) (word : BitVec 15) (l : LinePort) :
    (loseArbitration e word l).noise = l.noise ∧ lineTimers (loseArbitration e word l) = lineTimers l := by
  unfold loseArbitration
  split
  · exact repend_quiet l
  · exact ⟨rfl, rfl⟩

theorem beginBreak_quiet (l : LinePort) :
    (beginBreak l).noise = l.noise ∧ lineTimers (beginBreak l) = lineTimers l := by
  unfold beginBreak
  split <;> exact ⟨rfl, rfl⟩

theorem endRest_noise (l : LinePort) : (endRest l).noise = l.noise := by
  unfold endRest
  split <;> rfl

namespace Closed
variable (hP : Closed P)
include hP
variable {s : State}

theorem endBreak (hl : Allows P .quietLine) (h : P b k) : P b (endBreak k) := by
  obtain ⟨hnoise, -⟩ := repend_quiet k.line
  unfold Machine.endBreak
  split
  · split
    · exact hl _ _ { repend k.line with tx := .gap, aborts := k.line.aborts + 1 } hnoise h
    · exact hP.raiseCond _ (hl _ _ { repend k.line with
        tx := .resting, aborts := abortLimit, restTimer := some 0, abortedCrc := flightCrc k.line } hnoise h)
  · exact h

theorem completeBeacon (hl : Allows P .quietLine) (h : P b k) : P b (completeBeacon e k) := by
  unfold Machine.completeBeacon
  split
  · exact h
  rename_i f _
  split
  · have h1 := hP.endCond .txFault h
    have h2 := hl _ _
      { (Machine.endCond .txFault k).line with
        aborts := 0, beaconTimer := some 0, dueTaken := false, holdOff := none, frame := none,
        tx := if (Machine.endCond .txFault k).line.pending.isSome then .gap else .idle } rfl h1
    have h3 := hP.fee { (Machine.endCond .txFault k).fee with
      claim := noteAnnounced e.now f (Machine.endCond .txFault k).fee.claim } h2
    exact hP.notices ((Machine.endCond .txFault k).cond.notices &&& ~~~f.notices) h3
  · exact h

theorem endDuplicate (hl : Allows P .quietLine) (h : P b k) : P b (endDuplicate e k) := by
  unfold Machine.endDuplicate
  split
  · exact hP.testAdmission (hP.request _ (hP.endCond _
      (hl _ _ { k.line with duplicateTimer := none, silence := .none, tx := .idle } rfl h)))
  · exact h

theorem endIsolation (hl : Allows P .quietLine) (hu : Allows P .stow) (h : P (blocking e.list) k) :
    P (blocking e.list) (endIsolation e k) := by
  unfold Machine.endIsolation
  split
  · exact hP.updateCauses hu _ (hP.raiseCond _ (hl _ _ { k.line with isolationTimer := none } rfl h))
  · exact h

theorem takeDue (h : P b k) : P b (takeDue e k) := by
  unfold Machine.takeDue
  split
  · exact hP.request _ (hP.line (l := { k.line with dueTaken := true }) rfl rfl h)
  · exact h

theorem decayNoise (hl : Allows P .line) (h : P b k) : P b (decayNoise k) := by
  have h1 := hl _ _ { k.line with noise := k.line.noise - 1, noiseClock := k.line.noiseClock - secondMs } h
  unfold Machine.decayNoise
  simp only []
  split
  · exact hP.endCond _ h1
  · exact h1

/-! ### Axes, wind, heater -/

theorem axisCause (c : Cond) (i : Axis) (h : P b k) : P b (axisCause e c i k) := hP.faultAxis i (hP.raiseCond c h)

theorem takeReleased (i : Axis) (h : P b k) : P b (takeReleased e i k) := by
  unfold Machine.takeReleased
  simp only []
  split
  · rename_i hc
    obtain ⟨hs, -⟩ := hc
    exact hP.testAdmission (hP.axis i (fun _ hr => by simp [isMoving, hs] at hr) h)
  · exact h

theorem takeEngaged (i : Axis) (h : P (blocking e.list) k) : P (blocking e.list) (takeEngaged e i k) := by
  unfold Machine.takeEngaged
  simp only []
  split
  · exact hP.tryRelease i (hP.axis i (fun _ _ => rfl) h)
  · exact h

theorem ampFault (h : Holds P s) : Holds P (ampFault s) := by
  have fault (i : Axis) {k : Core} (h : P (blocking s.env.list) k) :
      P (blocking s.env.list)
        (if usesAmp (getAxis k i) = true then
          Machine.faultAxis (withInputs { s.env.inputs with ampFault := true } s).env i k else k) := by
    split
    · exact hP.faultAxis i h
    · exact h
  unfold Machine.ampFault
  split
  · exact h
  · exact fault .el (fault .az (hP.raiseCond _ h))

theorem takePin (p : PinInput) (h : Holds P s) : Holds P (takePin p s) := by
  unfold Machine.takePin
  split
  · have h1 : P (blocking s.env.list) (Machine.settlePinFeedback
        (withInputs (takePinFilters s.env.inputs) s).env s.core) := hP.settlePinFeedback h
    show P (blocking s.env.list) _
    simp only []
    split
    · exact hP.pinTests h1
    · exact h1
  · exact h

theorem putZone (i : Fin 4) {z : Zone} (hz : z.reading = (fourGet k.heat.zones i).reading) (h : P b k) :
    P b (putZone k i z) := by
  refine hP.heat ⟨rfl, rfl, fun j => ?_⟩ h
  by_cases hj : i = j
  · rw [← hj, fourGet_fourSet, hz]
  · rw [fourGet_fourSet_ne _ _ _ _ hj]

end Closed

/-- What the loader does with the section that it is at. -/
def loadOf (bytes : List Byte) : SectionId → State → State
  | .a => loadA bytes
  | .b => loadB bytes
  | .c => loadC bytes
  | .d => loadD bytes

theorem loadSection_none {l : List Byte} {s : State} (h : s.env.setup.loading = none) : loadSection l s = s := by
  simp [loadSection, h]

theorem loadSection_some {l : List Byte} {s : State} {x : SectionId} (h : s.env.setup.loading = some x) :
    loadSection l s = loadOf l x (withSetup { s.env.setup with loading := nextSection x } s) := by
  simp only [loadSection, h]
  cases x <;> rfl

theorem startCycle_reading (e : Env) (f : Bool) (z : Zone) : (startCycle e f z).reading = z.reading := by
  unfold startCycle
  simp only []
  split <;> rfl

theorem endOnTime_reading (e : Env) (z : Zone) : (endOnTime e z).reading = z.reading := by
  unfold endOnTime
  split <;> rfl

namespace Closed
variable (hP : Closed P)
include hP
variable {s : State}

theorem pollRound (hh : Allows P .heat) (a : PollAnswers) (h : P b k) : P b (pollRound e a k) := by
  unfold Machine.pollRound
  split
  · refine hP.evaluateHeat ?_
    have h1 := foldl_keeps (P b)
      (fun k z => if (fourGet k.heat.zones z).fails = 0 then Machine.endCond (.zoneSensor z) k else k) allFour
      (fun k z hk => by
        split
        · exact hP.endCond _ hk
        · exact hk) _ (hh _ _ (pollHeater e a k.heat) rfl h)
    unfold endSensorCauses
    simp only []
    split
    · exact hP.endCond _ h1
    · exact h1
  · exact h

theorem takeWet (h : P b k) : P b (takeWet e k) := by
  unfold Machine.takeWet
  split
  · exact hP.evaluateHeat (hP.heat ⟨rfl, rfl, fun _ => rfl⟩ h)
  · exact h

theorem endWetMemory (h : P b k) : P b (endWetMemory e k) := by
  unfold Machine.endWetMemory
  split
  · exact hP.evaluateHeat (hP.heat ⟨rfl, rfl, fun _ => rfl⟩ h)
  · exact h

theorem feedbackVerdict (hp : Allows P .proof) (h : P b k) : P b (feedbackVerdict e k) := by
  unfold Machine.feedbackVerdict
  split
  · exact h
  split
  · exact hP.syncCond _ _ (hp _ _ none h)
  · exact h

/-! ### The start sequence -/

theorem settleMasks (hm : Allows P .masks) (m : BitVec 36) (a : BitVec 6) (h : P b k) : P b (settleMasks m a k) := by
  unfold Machine.settleMasks
  refine foldl_keeps (P b) _ _ (fun k c hk => ?_) _ (hm _ _ m a h)
  split
  · exact hP.setNotice c hk
  · exact hk

theorem failSection (x : SectionId) (h : Holds P s) : Holds P (failSection x s) :=
  hP.changeList (s := { s with core := _ }) _ _ (hP.raiseCond _ h)

theorem beginCycles (h : P b k) : P b { k with heat := beginCycles e k.heat } :=
  hP.heat ⟨rfl, rfl, fun z => by rw [Machine.beginCycles, fourGet_fourOf]⟩ h

theorem restoreCold (h : Holds P s) : Holds P (restoreCold s) := by
  unfold Machine.restoreCold
  split
  · exact hP.changeList _ _ h
  · exact h

theorem loadOf (hm : Allows P .masks) (l : List Byte) (x : SectionId) (h : Holds P s) : Holds P (loadOf l x s) := by
  cases x with
  | a =>
    show Holds P (loadA l s)
    unfold loadA
    split
    · exact h
    · exact hP.failSection .a (s := { withSetup { s.env.setup with statusA := .failed } s with core := _ })
        (hP.line (l := { s.core.line with tx := .silent, silence := .identity }) rfl rfl h)
  | b =>
    show Holds P (loadB l s)
    unfold loadB
    split
    · exact h
    · exact hP.failSection .b (s := withSetup { s.env.setup with statusB := .failed } s) h
  | c =>
    show Holds P (loadC l s)
    unfold loadC
    split
    · rename_i c _
      have h1 : Holds P (beginBins (withSetup { s.env.setup with secC := c, statusC := .installed } s)) := h
      simp only []
      generalize beginBins (withSetup { s.env.setup with secC := c, statusC := .installed } s) = s1 at h1 ⊢
      exact hP.handFeeder h1
    · exact hP.failSection .c (s := withSetup { s.env.setup with statusC := .failed } s) h
  | d =>
    show Holds P (loadD l s)
    unfold loadD
    split
    · rename_i d _
      have h1 : Holds P (withSetup { s.env.setup with secD := d, statusD := .installed } s) := h
      simp only []
      generalize withSetup { s.env.setup with secD := d, statusD := .installed } s = s1 at h1 ⊢
      have h2 := hP.settleMasks hm d.masks d.alarm h1
      generalize Machine.settleMasks d.masks d.alarm s1.core = k1 at h2 ⊢
      exact hP.restoreCold (s := { s1 with core := _ }) (hP.beginCycles h2)
    · have h1 := hP.failSection .d (s := withSetup { s.env.setup with statusD := .failed } s) h
      simp only []
      generalize Machine.failSection .d (withSetup { s.env.setup with statusD := .failed } s) = s1 at h1 ⊢
      have h2 := hP.settleMasks hm 0 defaultAlarmMask h1
      generalize Machine.settleMasks 0 defaultAlarmMask s1.core = k1 at h2 ⊢
      exact h2

theorem loadSection (hm : Allows P .masks) (l : List Byte) (h : Holds P s) : Holds P (loadSection l s) := by
  cases hx : s.env.setup.loading with
  | none => rwa [loadSection_none hx]
  | some x =>
    rw [loadSection_some hx]
    exact hP.loadOf (s := withSetup _ s) hm l x h

theorem completeConfiguration (hl : Allows P .quietLine) (h : Holds P s) : Holds P (completeConfiguration s) := by
  unfold Machine.completeConfiguration
  split
  · have h1 : Holds P (withSetup { s.env.setup with configured := true } s) := h
    simp only []
    generalize withSetup { s.env.setup with configured := true } s = s1 at h1 ⊢
    have h2 := hP.stow (u := { s1.core.stow with state := derivedStow s1.env s1.core }) rfl h1
    have h3 : Holds P { s1 with core := deriveStow s1.env s1.core } := by
      refine hP.syncStowFailed ?_
      split
      · exact hP.raiseCond _ h2
      · exact h2
    have h4 : Holds P
        { s1 with core := startIsolation s1.env (Machine.request .normal (deriveStow s1.env s1.core)) } := by
      show P (blocking s1.env.list) (startIsolation s1.env (Machine.request .normal (deriveStow s1.env s1.core)))
      unfold startIsolation
      split
      · exact hl _ _ { (Machine.request .normal (deriveStow s1.env s1.core)).line with isolationTimer := some 0 } rfl
          (hP.request _ h3)
      · exact hP.request _ h3
    show P (blocking s1.env.list) _
    simp only []
    split
    · exact hP.demandStow h4
    · exact h4
  · exact h

/-! ### The control interval and the passing of time -/

theorem advance (hl : Allows P .line) (hu : Allows P .stow) (hh : Allows P .heat) (dt : Nat) (h : P b k) :
    P b (advanceCore e dt k) := by
  have h1 := hP.bothAxes (az := advanceAxis e dt k.axes.az) (el := advanceAxis e dt k.axes.el) rfl rfl h
  have h2 := hu _ _ (advanceStow e dt k.stow) h1
  have h3 := hh _ _ (advanceHeat e dt k.heat) (by rfl) h2
  have h4 := hl _ _ (advanceLine e dt k.line) h3
  exact hP.fee (advanceFeeder e dt k.fee) h4

end Closed

/-- Ages change no record's kind and no UNCERTAIN one (R71). -/
theorem blocking_ageLock (dt : Nat) (ls : List Lock) : blocking (ls.map (ageLock dt)) = blocking ls := by
  simp only [blocking, List.any_map]
  rfl

theorem axisInterval_state (e : Env) (k : Core) (i : Axis) : (axisInterval e k i).state = (getAxis k i).state := by
  unfold axisInterval
  simp only []
  split
  · rfl
  · rfl
  · rfl
  · rfl
  · simp only [advanceStopping]
    split <;> rfl

namespace Closed
variable (hP : Closed P)
include hP
variable {s : State}

theorem watchBrake (ms : Nat) (stuck : Bool) (i : Axis) (h : P b k) : P b (watchBrake e ms stuck i k) := by
  have h1 := hP.sameState i
    (r := if running (getAxis k i).brakeTimer then { getAxis k i with brakeSeen := true }
      else { getAxis k i with
        mismatchTimer := mismatchNext ms ((brakeReleased e i != brakeEnergised (getAxis k i)) && !stuck)
          (getAxis k i).mismatchTimer })
    (by split <;> rfl) h
  unfold Machine.watchBrake
  simp only []
  split
  · exact h1
  · exact hP.endCond _ h1

theorem watchZone (ms : Nat) (stuck : Bool) (z : Fin 4) (h : P b k) : P b (watchZone e ms stuck z k) := by
  unfold Machine.watchZone
  split
  · simp only []
    split
    · exact hP.putZone z rfl h
    · exact hP.endCond _ (hP.putZone z rfl h)
  · exact h

theorem watchFeedback (ms : Nat) (stuck : BitVec 10) (h : P b k) : P b (watchFeedback e ms stuck k) := by
  unfold Machine.watchFeedback
  split
  · exact h
  · have h1 := hP.watchBrake (e := e) ms (stuck.getLsbD 1) .el (hP.watchBrake (e := e) ms (stuck.getLsbD 0) .az h)
    have h2 := foldl_keeps (P b) (fun k z => Machine.watchZone e ms (stuck.getLsbD (6 + z.val)) z k) allFour
      (fun k z hk => hP.watchZone _ _ z hk) _ h1
    simp only []
    split
    · exact hP.evaluateHeat h2
    · exact h2

theorem endInputCauses (h : P b k) : P b (endInputCauses e k) := by
  have limit (i : Axis) {k : Core} (h : P b k) :
      P b (if limitActive e i = true then k else Machine.endCond (.limit i) k) := by
    split
    · exact h
    · exact hP.endCond _ h
  unfold Machine.endInputCauses
  simp only []
  split
  · exact limit .el (limit .az h)
  · exact hP.endCond _ (limit .el (limit .az h))

theorem sampleAll (hp : Allows P .proof) (x : Samples) (h : Holds P s) : Holds P (sampleAll x s) :=
  hP.watchFeedback _ _ (hP.endInputCauses (hp _ _ _ h))

theorem readEncoder (i : Axis) (a : EncoderAnswer) (h : P b k) : P b (readEncoder e i a k) := by
  unfold Machine.readEncoder
  simp only []
  split
  · refine hP.sameState i ?_ h
    unfold goodRead
    split <;> rfl
  · exact hP.faultAxis _ (hP.raiseCond _ (hP.sameState i rfl h))

theorem readEncoders (x : Samples) (h : Holds P s) : Holds P (readEncoders x s) := by
  have h1 := hP.readEncoder (e := s.env) .el x.el.encoder (hP.readEncoder (e := s.env) .az x.az.encoder h)
  unfold Machine.readEncoders
  split
  · simp only []
    split
    · exact h1
    · exact hP.bothAxes rfl rfl h1
  · exact h

theorem computeAxes (h : P b k) : P b (computeAxes e k) := by
  have h1 := hP.bothAxes (axisInterval_state e k .az) (axisInterval_state e k .el) h
  unfold Machine.computeAxes
  split
  · simp only []
    split
    · exact hP.raiseCond _ h1
    · exact h1
  · exact h

theorem takeLoads (w : Bool) (h : P b k) : P b (takeLoads e w k) := by
  unfold Machine.takeLoads
  simp only []
  split
  · exact hP.dropClaim (hP.fee _ h)
  split
  · exact h
  · exact hP.compute (hP.fee _ h)

theorem countOnSource (h : P b k) : P b (countOnSource e k) := by
  unfold Machine.countOnSource
  split
  · exact hP.flags _ _ _ h
  · exact hP.flags _ _ _ h

theorem stowTests (h : P b k) : P b (stowTests e k) := by
  unfold Machine.stowTests
  simp only []
  split
  · exact hP.driveInTest (hP.arrivalTest (hP.pinTests (hP.settlePinFeedback h)))
  · exact hP.settlePinFeedback h

theorem controlInterval (hl : Allows P .line) (hu : Allows P .stow) (hh : Allows P .heat) (hp : Allows P .proof)
    (x : Samples)
    (h : Holds P s) : Holds P (controlInterval x s) := by
  have h1 : Holds P (Machine.advance (toIntervalEnd s.env.now) s) := by
    show P (blocking (s.env.list.map _)) _
    rw [blocking_ageLock]
    exact hP.advance hl hu hh _ h
  exact hP.stowTests (hP.countOnSource (hP.takeLoads _ (hP.computeAxes (hP.readEncoders x (hP.sampleAll hp x h1)))))

end Closed

/-- An order row keeps what its owner keeps; its reception writes the line port and the stow unit. -/
theorem Closed.order (hP : Closed P) {i : Instr} {s : State} (hn : ∀ w ∈ writesOf i, Allows P w) {α : Type} (o : Order)
    (parse : List Byte → Option α) {act : α → State → State × Code} (hact : ∀ a s, Holds P s → Holds P (act a s).1)
    (h : Holds P s) (hl : Write.line ∈ writesOf i := by simp [writesOf])
    (hu : Write.stow ∈ writesOf i := by simp [writesOf]) : Holds P (Machine.takeOrder o parse act s) :=
  hP.takeOrder o parse (hn _ hl) (hn _ hu) hact h

/-- What the blocks' own writes keep, and those that a row needs, the row's work keeps. -/
theorem Closed.workOf (hP : Closed P) {i : Instr} {s : State} (hi : Plain i) (hn : ∀ w ∈ writesOf i, Allows P w)
    (h : Holds P s) : Holds P (workOf i s) := by
  cases i with
  | point o => exact hP.order hn o _ (fun a s h => hP.pointOrder (e := s.env) a h) h
  | hold o => exact hP.order hn o _ (fun _ s h => hP.holdOrder (e := s.env) h) h
  | brake o => exact hP.order hn o _ (fun _ s h => hP.brakeOrder (e := s.env) h) h
  | stow o => exact hP.order hn o _ (fun _ s h => hP.updateCauses (e := s.env) (hn .stow (by simp [writesOf])) _ h) h
  | unstow o => exact hP.order hn o _ (fun _ s h => hP.unstowOrder (e := s.env) (hn .stow (by simp [writesOf])) h) h
  | quiet o => exact hP.order hn o _ (fun _ s h => hP.quietOrder (e := s.env) h) h
  | wake o => exact hP.order hn o _ (fun _ _ h => hP.wakeEvent h) h
  | lock o => exact hP.order hn o _ (fun x _ h => hP.lockOrder x _ h) h
  | unlock o => exact hP.order hn o _ (fun x _ h => hP.unlockOrder x _ h) h
  | release o => exact hP.order hn o _ (fun _ _ h => hP.releaseOrder h) h
  | heat o => exact hP.order hn o _ (fun m s h => hP.heatOrder (e := s.env) (hn .mode (by simp [writesOf])) m h) h
  | clear o => exact hP.order hn o _ (fun cs s h => hP.clearOrder (e := s.env) cs h) h
  | prove o => exact hP.order hn o _ (fun t _ h => Closed.proveOrder (hn .proof (by simp [writesOf])) t h) h
  | undefinedOrderKind console p =>
    show Holds P (takeKind (kindAt p) (orderAt console p) s)
    rw [takeKind_undefined _ _ hi]
    exact hP.order hn _ _ (fun _ _ h => h) h
  | peerBeacon n l => exact hP.takeBeacon (hn .line (by simp [writesOf])) (hn .stow (by simp [writesOf])) n l h
  | ownNumberBeacon => exact hP.hearDuplicate (hn .quietLine (by simp [writesOf])) h
  | discardedFrame f =>
    obtain hd | hs := takeFrame_plain hi s
    · show Holds P (takeFrame f s)
      rw [hd]
      exact hP.discard (hn .timedLine (by simp [writesOf])) h
    · show Holds P (takeFrame f s)
      rwa [hs]
  | stray => exact hP.discard (hn .timedLine (by simp [writesOf])) h
  | transmissionStart gap => exact hP.startTransmission _ _ h
  | lostArbitration word => exact hP.line (loseArbitration_quiet ..).1 (loseArbitration_quiet ..).2 h
  | abort => exact hP.line (beginBreak_quiet _).1 (beginBreak_quiet _).2 h
  | breakEnd => exact hP.endBreak (hn .quietLine (by simp [writesOf])) h
  | restTimerExpiry => exact (hn .quietLine (by simp [writesOf])) _ _ _ (endRest_noise _) h
  | beaconComplete => exact hP.completeBeacon (hn .quietLine (by simp [writesOf])) h
  | duplicateTimerExpiry => exact hP.endDuplicate (hn .quietLine (by simp [writesOf])) h
  | isolationTimerExpiry => exact hP.endIsolation (hn .quietLine (by simp [writesOf])) (hn .stow (by simp [writesOf])) h
  | beaconIntervalDue => exact hP.takeDue h
  | noiseDecay => exact hP.decayNoise (hn .line (by simp [writesOf])) h
  | peerStale n => exact hP.markStale (hn .stow (by simp [writesOf])) n h
  | peerExpiry n => exact hP.expirePeer (hn .stow (by simp [writesOf])) n h
  | controlInterval x =>
    have line := hn .line (by simp [writesOf])
    have stow := hn .stow (by simp [writesOf])
    have heat := hn .heat (by simp [writesOf])
    exact hP.controlInterval line stow heat (hn .proof (by simp [writesOf])) x h
  | onSourceSet =>
    show P (blocking s.env.list) (setOnSource s.core)
    unfold setOnSource
    split
    · exact hP.flags _ _ _ h
    · exact h
  | followTimeout i =>
    show P (blocking s.env.list) (followTimeout s.env i s.core)
    unfold followTimeout
    split
    · exact hP.endCond _ (hP.axisCause _ i h)
    · exact h
  | brakeReleasedFeedback i => exact hP.takeReleased i h
  | brakeEngagedFeedback i =>
    exact hP.takeEngaged (e := (withInputs (withBrake i false s.env.inputs) s).env) i h
  | brakeTimeout i =>
    show P (blocking s.env.list) (brakeTimeout s.env i s.core)
    unfold brakeTimeout
    split
    · exact hP.axisCause _ i h
    · exact h
  | brakeMismatch i =>
    show P (blocking s.env.list) (brakeMismatch s.env i s.core)
    unfold brakeMismatch
    split
    · exact hP.axisCause _ i h
    · exact h
  | idleBrakeExpiry i =>
    show P (blocking s.env.list) (idleExpiry s.env i s.core)
    unfold idleExpiry
    split
    · exact hP.enterStopping i h
    · exact h
  | encoderRecovered i =>
    show P (blocking s.env.list) (recoverEncoder i s.core)
    unfold recoverEncoder
    simp only []
    split
    · exact hP.endCond _ (hP.sameState i rfl h)
    · exact h
  | limitSwitch i upper => exact hP.axisCause _ i h
  | ampFaultInput => exact hP.ampFault h
  | pinInputTaken p => exact hP.takePin p h
  | pinTimeout => exact hP.pinExpiry h
  | releaseHoldExpiry => exact hP.endHold h
  | wakeSettleEnd => exact hP.endSettle h
  | anemometerPulse => exact h
  | binEnd lost => exact hP.binEndWork (hn .stow (by simp [writesOf])) lost h
  | gustValid lost => exact hP.binEndWhere (hn .stow (by simp [writesOf])) _ lost h
  | blockEnd lost => exact hP.binEndWhere (hn .stow (by simp [writesOf])) _ lost h
  | stallExpiry lost => exact hP.binEndWhere (hn .stow (by simp [writesOf])) _ lost h
  | windProofVerdict lost => exact hP.binEndWhere (hn .stow (by simp [writesOf])) _ lost h
  | graceExpiry => exact hP.graceWork (hn .stow (by simp [writesOf])) h
  | settleIntervalEnd =>
    show P (blocking s.env.list) (endSettleInterval s.env s.core)
    unfold endSettleInterval
    split
    · exact hP.testAdmission (hP.fee _ h)
    · exact h
  | fillTimeEnd =>
    show P (blocking s.env.list) (endFill s.env s.core)
    unfold endFill
    split
    · exact hP.testAdmission (hP.fee _ h)
    · exact h
  | stowWaitLimit =>
    show P (blocking s.env.list) (waitLimit s.env s.core)
    unfold waitLimit
    split
    · exact hP.testAdmission h
    · exact h
  | keyTaken n => exact hP.takeKey n h
  | recordWriteEnd => exact h
  | pollRound a => exact hP.pollRound (hn .heat (by simp [writesOf])) a h
  | sensorFault x =>
    show P (blocking s.env.list) (sensorFault s.env x s.core)
    unfold sensorFault
    split
    · exact hP.evaluateHeat (hP.raiseCond _ h)
    · exact h
  | wetChange => exact hP.takeWet h
  | wetMemoryExpiry => exact hP.endWetMemory h
  | cycleStart z =>
    show P (blocking s.env.list) (cycleStart s.env z s.core)
    unfold cycleStart
    split
    · exact hP.putZone z (startCycle_reading ..) h
    · exact h
  | onTimeEnd z => exact hP.putZone z (endOnTime_reading ..) h
  | zoneFeedbackTimeout z =>
    show P (blocking s.env.list) (zoneFault s.env z s.core)
    unfold zoneFault
    split
    · exact hP.evaluateHeat (hP.raiseCond _ h)
    · exact h
  | feedbackProofVerdict => exact hP.feedbackVerdict (hn .proof (by simp [writesOf])) h
  | sectionLoaded l => exact hP.loadSection (hn .masks (by simp [writesOf])) l h
  | configurationComplete => exact hP.completeConfiguration (hn .quietLine (by simp [writesOf])) h
  | resetAsserted _ _ _ => exact h
  | supplyFailure _ _ _ _ => exact h
  | startInstant => exact h

/-- The work of a row around which the settling stands, in reset or not. -/
theorem Closed.work (hP : Closed P) {i : Instr} {s : State} (hi : Plain i) (hn : ∀ w ∈ writesOf i, Allows P w)
    (h : Holds P s) : Holds P (work (Machine.workOf i) s) := by
  unfold Machine.work
  split
  · exact h
  · exact hP.settle _ (hP.workOf hi hn h)

end Sys2Proof.Machine
end

section
/-! PROOFS. What every step keeps of the blocks: protection (R26), the class summary (R172), the outputs (R183, 11.4); the step itself, the station at rest and the state of reset (logs 1 and 2). -/

namespace Sys2Proof.Machine

/-! ## Invariants of the blocks -/

/-- A predicate that every write to the blocks keeps and that holds of the blocks of every start. -/
structure Invariant (P : Bool → Core → Prop) : Prop extends Closed P where
  allows : ∀ w, Allows P w
  warm : ∀ b st, P b (warmCore st)
  cold : ∀ b, P b startCore

variable {P : Bool → Core → Prop} {s t : State}

theorem Invariant.enterReset (hP : Invariant P) (st : Store) (h : Holds P s) : Holds P (enterReset st s) :=
  hP.allows .line _ _ (lineInReset s.core.line) h

theorem Invariant.startInstant (hP : Invariant P) (s : State) : Holds P (startInstant s) := by
  unfold Machine.startInstant
  split
  · exact hP.warm _ _
  · exact hP.changeList _ _ (s := { s with
      inReset := false, env := startEnv, core := startCore, store := emptyStore, slot := startSlot,
      outputs := safeOutputs }) (hP.cold _)

theorem Invariant.exec (hP : Invariant P) {i : Instr} (h : Holds P s) (ht : exec i s = .next t) : Holds P t := by
  rw [← exec_rowOf] at ht
  have hplain := plain_rowOf i
  generalize rowOf i = j at ht hplain
  cases hj : isResetRow j with
  | false =>
    rw [exec_work hj] at ht
    cases ht
    exact hP.work hplain (fun w _ => hP.allows w) h
  | true =>
    cases j with
    | resetAsserted ms cuts ce =>
      cases ht
      unfold assertReset
      split
      · exact hP.enterReset _ h
      · exact h
    | supplyFailure ms lost cuts ce =>
      cases ht
      exact hP.enterReset _ h
    | startInstant =>
      cases ht
      split
      · exact hP.startInstant s
      · exact h
    | _ => simp [isResetRow] at hj

theorem Invariant.idle (hP : Invariant P) (h : Holds P s) : Holds P (idle s) := by
  unfold Machine.idle
  split
  · exact h
  split
  · exact h
  split
  · refine hP.settle _ ?_
    show P (blocking (s.env.list.map _)) _
    rw [blocking_ageLock]
    exact hP.advance (hP.allows .line) (hP.allows .stow) (hP.allows .heat) 1 h
  · exact h

/-! ## The step (logs 1 and 2) -/

theorem step_idle (h : s.pending = []) : step s = .next (idle s) := by simp [step, h]

theorem step_command {c : Instr} {rest : List Instr} (h : s.pending = c :: rest) :
    step s = exec c { s with pending := rest } := by simp [step, h]

/-- What holds of the blocks before a step holds after it. -/
theorem Invariant.step (hP : Invariant P) (h : Holds P s) (ht : step s = .next t) : Holds P t := by
  cases hp : s.pending with
  | nil =>
    rw [step_idle hp] at ht
    cases ht
    exact hP.idle h
  | cons c rest =>
    rw [step_command hp] at ht
    exact hP.exec (s := { s with pending := rest }) h ht

/-- Protection is an invariant of the blocks: every write that starts an axis tests the list first (R2, R26). -/
theorem invariant_protectedBlocks : Invariant protectedBlocks where
  toClosed := closed_protectedBlocks
  allows w := by
    cases w with
    | quietLine => exact fun _ _ _ _ h => h
    | timedLine => exact fun _ _ _ _ h => h
    | heat => exact fun _ _ _ _ h => h
    | masks => exact fun _ _ _ _ h => h
    | _ => exact fun _ _ _ h => h
  warm _ _ := fun _ => ⟨rfl, rfl⟩
  cold _ := fun _ => ⟨rfl, rfl⟩

/-- Settles O4. -/
theorem everyStepKeepsProtection : Obligations.EveryStepKeepsProtection :=
  fun _ _ h ht => invariant_protectedBlocks.step h ht

/-- The class summary is the one of the conditions and masks (R172). -/
def summaryBlocks (_ : Bool) (k : Core) : Prop := k.cond.summary = summaryOf k.cond.states k.cond.masks

theorem summaryOf_start : summaryOf startCond.states startCond.masks = 0 := by decide

/-- The summary is an invariant: a condition's change and the settling of the masks form it afresh. -/
theorem invariant_summaryBlocks : Invariant summaryBlocks where
  fee _ h := h
  line _ _ h := h
  cond _ _ _ := rfl
  notices _ h := h
  stow _ h := h
  heat _ h := h
  flags _ _ _ h := h
  axis _ _ _ h := h
  rebase _ h := h
  allows w := by
    cases w with
    | quietLine => exact fun _ _ _ _ h => h
    | timedLine => exact fun _ _ _ _ h => h
    | heat => exact fun _ _ _ _ h => h
    | masks => exact fun _ _ _ _ _ => rfl
    | _ => exact fun _ _ _ h => h
  warm _ _ := summaryOf_start.symm
  cold _ := summaryOf_start.symm

/-- Settles O5. -/
theorem everyStepKeepsSummary : Obligations.EveryStepKeepsSummary :=
  fun _ _ h ht => invariant_summaryBlocks.step h ht

/-! ## Outputs (11.4, R183) -/

theorem outputsRight_drive (h : s.inReset = false) : OutputsRight (drive s) := by simp [OutputsRight, h]

theorem outputsRight_settle (old : Nat) (h : s.inReset = false) : OutputsRight (settle old s) :=
  outputsRight_drive (s := { s with core := _, store := _ }) h

theorem outputsRight_enterReset (st : Store) (s : State) : OutputsRight (enterReset st s) := rfl

end Sys2Proof.Machine
end

section
/-! PROOFS. What every row leaves alone beside the blocks: the time, the lists, the settings, the wind watch, the inputs, the result slot and the store (95). -/

namespace Sys2Proof.Machine

/-! ## Parts of a state beside the blocks -/

/-- The parts of a state beside the acting blocks and the outputs. -/
inductive Part where
  | time
  | list
  | peers
  | setup
  | wind
  | inputs
  | slot
  | store
  | queue
  | reset
  deriving DecidableEq

/-- The records, marks and writes of the retained store are the same. -/
def StoreSame (a b : Store) : Prop :=
  b.records = a.records ∧ b.marks = a.marks ∧ b.queue = a.queue ∧ b.writing = a.writing

/-- One part of a state is as it was. -/
def samePart : Part → State → State → Prop
  | .time, s, t => t.env.now = s.env.now
  | .list, s, t => t.env.list = s.env.list
  | .peers, s, t => t.env.peers = s.env.peers
  | .setup, s, t => t.env.setup = s.env.setup
  | .wind, s, t => t.env.wind = s.env.wind
  | .inputs, s, t => t.env.inputs = s.env.inputs
  | .slot, s, t => t.slot = s.slot
  | .store, s, t => StoreSame s.store t.store
  | .queue, s, t => t.pending = s.pending
  | .reset, s, t => t.inReset = s.inReset

/-- No part but the ones named changes. -/
structure Writes (ps : List Part) (s t : State) : Prop where
  same : ∀ p, ¬p ∈ ps → samePart p s t

theorem samePart_refl (p : Part) (s : State) : samePart p s s := by
  cases p with
  | store => exact ⟨rfl, rfl, rfl, rfl⟩
  | _ => rfl

theorem samePart_trans {p : Part} {s t u : State} (h : samePart p s t) (g : samePart p t u) : samePart p s u := by
  cases p with
  | store =>
    obtain ⟨hr, hm, hq, hw⟩ := h
    obtain ⟨gr, gm, gq, gw⟩ := g
    exact ⟨gr.trans hr, gm.trans hm, gq.trans hq, gw.trans hw⟩
  | _ => exact Eq.trans g h

variable {ps : List Part} {s t u : State}

theorem Writes.refl (s : State) : Writes ps s s := ⟨fun p _ => samePart_refl p s⟩
theorem Writes.trans (h : Writes ps s t) (g : Writes ps t u) : Writes ps s u :=
  ⟨fun p hp => samePart_trans (h.same p hp) (g.same p hp)⟩
theorem Writes.mono {qs : List Part} (h : Writes qs s t) (hq : ∀ p ∈ qs, p ∈ ps) : Writes ps s t :=
  ⟨fun p hp => h.same p fun hm => hp (hq p hm)⟩

/-- Work on the blocks alone changes no other part. -/
theorem Writes.core (s : State) (k : Core) : Writes ps s { s with core := k } := ⟨fun p _ => by
  cases p with
  | store => exact ⟨rfl, rfl, rfl, rfl⟩
  | _ => rfl⟩

theorem Writes.wind (s : State) (w : Wind) (k : Core) :
    Writes [.wind] s { s with env := { s.env with wind := w }, core := k } := ⟨fun p hp => by
  cases p with
  | wind => simp at hp
  | store => exact ⟨rfl, rfl, rfl, rfl⟩
  | _ => rfl⟩

theorem Writes.peers (s : State) (l : List Peer) : Writes [.peers] s { s with env := { s.env with peers := l } } :=
  ⟨fun p hp => by
  cases p with
  | peers => simp at hp
  | store => exact ⟨rfl, rfl, rfl, rfl⟩
  | _ => rfl⟩

theorem Writes.inputs (n : Inputs) (s : State) : Writes [.inputs] s (withInputs n s) := ⟨fun p hp => by
  cases p with
  | inputs => simp at hp
  | store => exact ⟨rfl, rfl, rfl, rfl⟩
  | _ => rfl⟩

theorem Writes.setup (x : Setup) (s : State) : Writes [.setup] s (withSetup x s) := ⟨fun p hp => by
  cases p with
  | setup => simp at hp
  | store => exact ⟨rfl, rfl, rfl, rfl⟩
  | _ => rfl⟩

theorem Writes.store (s : State) (st : Store) : Writes [.store] s { s with store := st } := ⟨fun p hp => by
  cases p with
  | store => simp at hp
  | _ => rfl⟩

theorem Writes.settle (old : Nat) (s : State) : Writes [] s (settle old s) := ⟨fun p _ => by
  cases p with
  | store =>
    obtain ⟨-, hr, hm, hq, hw, -⟩ := settle_store old s
    exact ⟨hr, hm, hq, hw⟩
  | _ => rfl⟩

/-! ## The lockout list -/

theorem changeList_writes (new : List Lock) (ms : List Mark) (s : State) :
    Writes [.list, .store] s (changeList new ms s) := by
  unfold changeList
  split
  · exact .refl s
  · refine ⟨fun p hp => ?_⟩
    cases p with
    | list => simp at hp
    | store => simp at hp
    | _ => rfl

theorem removeIdent_writes (i : Ident) (s : State) : Writes [.list, .store] s (removeIdent i s) := by
  unfold removeIdent
  split
  · exact .refl s
  · exact changeList_writes ..

theorem settleKey_writes (n : Fin 4) (k : LockKind) (b : Bool) (s : State) :
    Writes [.list, .store] s (settleKey n k b s) := by
  cases b
  · exact removeIdent_writes ..
  · exact changeList_writes ..

theorem takeKey_writes (n : Fin 4) (s : State) : Writes [.list, .store, .inputs] s (takeKey n s) := by
  unfold takeKey
  split
  · exact .refl s
  simp only []
  split
  · exact ((Writes.inputs (keyNoted n s.env.inputs) s).mono (by simp)).trans ((settleKey_writes ..).mono (by simp))
  · exact .refl s

theorem lockOrder_writes (x : LockKind) (c : Nat) (s : State) : Writes [.list, .store] s (lockOrder x c s).1 := by
  unfold lockOrder
  simp only []
  split
  · split
    · exact changeList_writes ..
    · exact .refl s
  · split
    · exact .refl s
    split
    · exact .refl s
    · exact changeList_writes ..

theorem unlockOrder_writes (x : LockKind) (c : Nat) (s : State) : Writes [.list, .store] s (unlockOrder x c s).1 := by
  unfold unlockOrder
  simp only []
  split
  · exact .refl s
  split
  · exact .refl s
  · exact changeList_writes ..

theorem releaseOrder_writes (s : State) : Writes [.list, .store] s (releaseOrder s).1 := by
  unfold releaseOrder
  split
  · exact .refl s
  split
  · exact .refl s
  · exact removeIdent_writes ..

/-! ## Orders -/

theorem hearOrder_writes (o : Order) (s : State) : Writes ps s (hearOrder o s) := by
  unfold hearOrder
  split
  · exact .refl s
  split
  · exact .core ..
  split
  · exact .core ..
  · exact .refl s

theorem giveResult_writes (o : Order) (c : Code) (s : State) : Writes [.slot] s (giveResult o c s) := ⟨fun p hp => by
  cases p with
  | slot => simp at hp
  | store => exact ⟨rfl, rfl, rfl, rfl⟩
  | _ => rfl⟩

/-- An order writes the result slot and what its owner writes. -/
theorem takeOrder_writes {α : Type} (o : Order) (parse : List Byte → Option α) {act : α → State → State × Code}
    (hact : ∀ a s, Writes ps s (act a s).1) (s : State) : Writes (.slot :: ps) s (takeOrder o parse act s) := by
  have result (c : Code) (s : State) : Writes (.slot :: ps) s (giveResult o c s) :=
    (giveResult_writes o c s).mono (by simp)
  unfold takeOrder
  split
  · split
    · exact (hearOrder_writes o s).trans (result ..)
    · exact ((hearOrder_writes o s).trans ((hact _ _).mono fun p hp => List.mem_cons_of_mem _ hp)).trans (result ..)
  · exact hearOrder_writes o s

theorem proveOrder_writes (x : Bool × Bool) (s : State) : Writes [.wind] s (proveOrder x s).1 := by
  unfold proveOrder
  split
  · obtain ⟨w, f⟩ := x
    cases w
    · exact .core ..
    · exact .wind ..
  · exact .refl s

/-! ## Peers and wind -/

theorem changePeers_writes (l : List Peer) (w f : Bool) (s : State) :
    Writes [.peers, .wind] s (changePeers l w f s) := by
  have h1 := (Writes.peers s l).mono (ps := [.peers, .wind]) (by simp)
  have h2 : Writes [.peers, .wind] s (if w = true then recountWind { s with env := { s.env with peers := l } }
      else { s with env := { s.env with peers := l } }) := by
    split
    · exact h1.trans ((Writes.wind ..).mono (by simp))
    · exact h1
  unfold changePeers
  simp only []
  split
  · exact h2.trans (.core ..)
  · exact h2

theorem takePeer_writes (p : Peer) (s : State) : Writes [.peers, .wind] s (takePeer p s) := by
  unfold takePeer
  split
  · unfold updatePeer
    split
    · exact changePeers_writes ..
    · exact (Writes.core s _).trans (changePeers_writes ..)
  split
  · unfold admitPeer
    split
    · exact changePeers_writes ..
    split
    · exact changePeers_writes ..
    · exact .core ..
  · exact .refl s

theorem takeBeacon_writes (n : Byte) (l : List Byte) (s : State) : Writes [.peers, .wind] s (takeBeacon n l s) := by
  unfold takeBeacon
  split
  · exact .refl s
  split
  · exact .core ..
  split
  · exact .core ..
  split
  · simp only []
    split
    · exact (Writes.core s _).trans (takePeer_writes ..)
    · exact .core ..
  · exact .refl s

theorem markStale_writes (n : Nat) (s : State) : Writes [.peers, .wind] s (markStale n s) := by
  unfold markStale
  split
  · exact .refl s
  split
  · exact changePeers_writes ..
  · exact .refl s

theorem expirePeer_writes (n : Nat) (s : State) : Writes [.peers, .wind] s (expirePeer n s) := by
  unfold expirePeer
  split
  · exact .refl s
  split
  · exact (Writes.core s _).trans (changePeers_writes ..)
  · exact .refl s

theorem binEndWork_writes (lost : Nat) (s : State) : Writes [.wind] s (binEndWork lost s) := by
  unfold binEndWork
  split
  · exact .refl s
  · exact .wind ..

theorem binEndWhere_writes (falls : State → Bool) (lost : Nat) (s : State) :
    Writes [.wind] s (binEndWhere falls lost s) := by
  unfold binEndWhere
  split
  · exact binEndWork_writes ..
  · exact .refl s

theorem graceWork_writes (s : State) : Writes [.wind] s (graceWork s) := by
  unfold graceWork
  split
  · exact (Writes.wind s _ s.core).trans (.wind ..)
  · exact .refl s

/-! ## Inputs -/

theorem ampFault_writes (s : State) : Writes [.inputs] s (ampFault s) := by
  unfold ampFault
  split
  · exact .refl s
  · exact (Writes.inputs _ s).trans (.core ..)

theorem takePin_writes (p : PinInput) (s : State) : Writes [.inputs] s (takePin p s) := by
  unfold takePin
  split
  · exact (Writes.inputs _ s).trans (.core ..)
  · exact .refl s

/-! ## The start sequence -/

theorem failSection_writes (x : SectionId) (s : State) : Writes [.list, .store] s (failSection x s) :=
  (Writes.core s _).trans (changeList_writes ..)

theorem restoreCold_writes (s : State) : Writes [.list, .store] s (restoreCold s) := by
  unfold restoreCold
  split
  · exact changeList_writes ..
  · exact .refl s

/-- What the loader writes. -/
def loaderParts : List Part := [.list, .store, .setup, .wind]

theorem loadOf_writes (l : List Byte) (x : SectionId) (s : State) : Writes loaderParts s (loadOf l x s) := by
  have setup (p : Setup) (s : State) : Writes loaderParts s (withSetup p s) :=
    (Writes.setup p s).mono (by simp [loaderParts])
  have fail (x : SectionId) (s : State) : Writes loaderParts s (failSection x s) :=
    (failSection_writes x s).mono (by simp [loaderParts])
  have bins (s : State) : Writes loaderParts s (beginBins s) :=
    (Writes.wind s _ s.core).mono (by simp [loaderParts])
  cases x with
  | a =>
    show Writes loaderParts s (loadA l s)
    unfold loadA
    split
    · exact setup ..
    · exact (setup ..).trans ((Writes.core _ _).trans (fail ..))
  | b =>
    show Writes loaderParts s (loadB l s)
    unfold loadB
    split
    · exact setup ..
    · exact (setup ..).trans (fail ..)
  | c =>
    show Writes loaderParts s (loadC l s)
    unfold loadC
    split
    · exact ((setup _ s).trans (bins _)).trans (.core ..)
    · exact ((setup ..).trans (fail ..)).trans (bins _)
  | d =>
    show Writes loaderParts s (loadD l s)
    unfold loadD
    split
    · exact ((setup _ s).trans (.core ..)).trans ((restoreCold_writes _).mono (by simp [loaderParts]))
    · exact ((setup ..).trans (fail ..)).trans (.core ..)

theorem loadSection_writes (l : List Byte) (s : State) : Writes loaderParts s (loadSection l s) := by
  cases hx : s.env.setup.loading with
  | none => rw [loadSection_none hx]; exact .refl s
  | some x =>
    rw [loadSection_some hx]
    exact ((Writes.setup _ s).mono (by simp [loaderParts])).trans (loadOf_writes ..)

theorem completeConfiguration_writes (s : State) : Writes [.setup] s (completeConfiguration s) := by
  unfold completeConfiguration
  split
  · exact (Writes.setup _ s).trans (.core ..)
  · exact .refl s

/-! ## The control interval -/

/-- A control interval writes every part but the result slot, the queue and the reset. -/
def intervalParts : List Part := [.time, .list, .peers, .setup, .wind, .inputs, .store]

theorem readEncoders_writes (x : Samples) (s : State) : Writes intervalParts s (readEncoders x s) := by
  unfold readEncoders
  split
  · simp only []
    split
    · exact .core ..
    · refine ⟨fun p hp => ?_⟩
      cases p with
      | slot => rfl
      | queue => rfl
      | reset => rfl
      | _ => simp [intervalParts] at hp
  · exact .refl s

theorem controlInterval_writes (x : Samples) (s : State) : Writes intervalParts s (controlInterval x s) := by
  have h1 : Writes intervalParts s (sampleAll x (advance (toIntervalEnd s.env.now) s)) := ⟨fun p hp => by
    cases p with
    | slot => rfl
    | queue => rfl
    | reset => rfl
    | _ => simp [intervalParts] at hp⟩
  exact (h1.trans (readEncoders_writes ..)).trans (.core ..)

/-! ## Every row -/

/-- The parts that a row may write beside the blocks. -/
def partsOf : Instr → List Part
  | .lock _ | .unlock _ | .release _ => [.slot, .list, .store]
  | .prove _ => [.slot, .wind]
  | .point _ | .hold _ | .brake _ | .stow _ | .unstow _ | .quiet _ | .wake _ | .heat _ | .clear _
  | .undefinedOrderKind _ _ => [.slot]
  | .peerBeacon _ _ | .peerStale _ | .peerExpiry _ => [.peers, .wind]
  | .anemometerPulse | .binEnd _ | .gustValid _ | .blockEnd _ | .stallExpiry _ | .windProofVerdict _
  | .graceExpiry => [.wind]
  | .brakeReleasedFeedback _ | .brakeEngagedFeedback _ | .limitSwitch _ _ | .ampFaultInput
  | .pinInputTaken _ => [.inputs]
  | .keyTaken _ => [.list, .store, .inputs]
  | .recordWriteEnd => [.store]
  | .sectionLoaded _ => loaderParts
  | .configurationComplete => [.setup]
  | .controlInterval _ => intervalParts
  | _ => []

/-- A plain row's work writes no part but the row's. -/
theorem workOf_writes {i : Instr} (hi : Plain i) (s : State) : Writes (partsOf i) s (workOf i s) := by
  cases i with
  | point o => exact takeOrder_writes o _ (fun _ _ => .core ..) s
  | hold o => exact takeOrder_writes o _ (fun _ _ => .core ..) s
  | brake o => exact takeOrder_writes o _ (fun _ _ => .core ..) s
  | stow o => exact takeOrder_writes o _ (fun _ _ => .core ..) s
  | unstow o => exact takeOrder_writes o _ (fun _ _ => .core ..) s
  | quiet o => exact takeOrder_writes o _ (fun _ _ => .core ..) s
  | wake o => exact takeOrder_writes o _ (fun _ _ => .core ..) s
  | heat o => exact takeOrder_writes o _ (fun _ _ => .core ..) s
  | clear o => exact takeOrder_writes o _ (fun _ _ => .core ..) s
  | lock o => exact takeOrder_writes o _ (fun _ _ => lockOrder_writes ..) s
  | unlock o => exact takeOrder_writes o _ (fun _ _ => unlockOrder_writes ..) s
  | release o => exact takeOrder_writes o _ (fun _ _ => releaseOrder_writes _) s
  | prove o => exact takeOrder_writes o _ (fun _ _ => proveOrder_writes ..) s
  | undefinedOrderKind console p =>
    show Writes [.slot] s (takeKind (kindAt p) (orderAt console p) s)
    rw [takeKind_undefined _ _ hi]
    exact takeOrder_writes _ _ (fun _ _ => .refl _) s
  | peerBeacon n l => exact takeBeacon_writes ..
  | discardedFrame f =>
    show Writes [] s (takeFrame f s)
    obtain hd | hs := takeFrame_plain hi s
    · rw [hd]; exact .core ..
    · rw [hs]; exact .refl s
  | peerStale n => exact markStale_writes ..
  | peerExpiry n => exact expirePeer_writes ..
  | controlInterval x => exact controlInterval_writes ..
  | brakeReleasedFeedback i => exact (Writes.inputs _ s).trans (.core ..)
  | brakeEngagedFeedback i => exact (Writes.inputs _ s).trans (.core ..)
  | limitSwitch i upper => exact (Writes.inputs _ s).trans (.core ..)
  | ampFaultInput => exact ampFault_writes s
  | pinInputTaken p => exact takePin_writes ..
  | anemometerPulse => exact .wind s _ s.core
  | binEnd lost => exact binEndWork_writes ..
  | gustValid lost => exact binEndWhere_writes (fun s => gustFalls s.env.wind) lost s
  | blockEnd lost => exact binEndWhere_writes (fun s => blockFalls s.env.wind) lost s
  | stallExpiry lost => exact binEndWhere_writes stallFalls lost s
  | windProofVerdict lost => exact binEndWhere_writes (verdictFalls lost) lost s
  | graceExpiry => exact graceWork_writes s
  | keyTaken n => exact takeKey_writes ..
  | recordWriteEnd => exact .store ..
  | sectionLoaded l => exact loadSection_writes ..
  | configurationComplete => exact completeConfiguration_writes s
  | resetAsserted _ _ _ => exact .refl s
  | supplyFailure _ _ _ _ => exact .refl s
  | startInstant => exact .refl s
  | _ => exact .core ..

theorem work_writes {i : Instr} (hi : Plain i) (s : State) : Writes (partsOf i) s (work (workOf i) s) := by
  unfold work
  split
  · exact .refl s
  · exact (workOf_writes hi s).trans ((Writes.settle _ _).mono (by simp))

/-- No row's work enters or leaves the reset, or touches the queue. -/
theorem partsOf_quiet (i : Instr) : ¬Part.reset ∈ partsOf i ∧ ¬Part.queue ∈ partsOf i := by
  cases i <;> simp [partsOf, loaderParts, intervalParts]

/-- A row's answer on the station: the rows of the reset, or a plain row's work. -/
theorem exec_cases {i : Instr} (h : exec i s = .next t) :
    (Plain (rowOf i) ∧ isResetRow (rowOf i) = false ∧ t = work (workOf (rowOf i)) s)
      ∨ (∃ ms cuts ce, rowOf i = .resetAsserted ms cuts ce ∧ t = assertReset ms cuts ce s)
      ∨ (∃ ms lost cuts ce, rowOf i = .supplyFailure ms lost cuts ce ∧ t = failSupply ms lost cuts ce s)
      ∨ (rowOf i = .startInstant ∧ t = if s.inReset then drive (startInstant s) else s) := by
  rw [← exec_rowOf] at h
  have hplain := plain_rowOf i
  generalize rowOf i = j at h hplain
  cases j with
  | resetAsserted ms cuts ce =>
    cases h
    exact .inr (.inl ⟨ms, cuts, ce, rfl, rfl⟩)
  | supplyFailure ms lost cuts ce =>
    cases h
    exact .inr (.inr (.inl ⟨ms, lost, cuts, ce, rfl, rfl⟩))
  | startInstant =>
    cases h
    exact .inr (.inr (.inr ⟨rfl, rfl⟩))
  | _ =>
    rw [exec_work rfl] at h
    cases h
    exact .inl ⟨hplain, rfl, rfl⟩

/-! ## The frame of the tables and records -/

/-- The rows that the statement names for a part. -/
def changesPart : Part → Instr → Bool
  | .time => changesTime
  | .list => changesList
  | .peers => changesPeers
  | .setup => changesSetup
  | .wind => changesWind
  | .inputs => changesInputs
  | .slot => changesSlot
  | .store => changesStore
  | .queue => fun _ => false
  | .reset => fun
    | .resetAsserted _ _ _ | .supplyFailure _ _ _ _ | .startInstant => true
    | _ => false

/-- A row writes no part for which it is not named. -/
theorem not_mem_partsOf {p : Part} {i : Instr} (h : changesPart p i = false) : ¬p ∈ partsOf i := by
  intro hm
  cases p with
  | queue => exact absurd hm (partsOf_quiet i).2
  | reset => exact absurd hm (partsOf_quiet i).1
  | time =>
    cases i <;> simp [partsOf, loaderParts, intervalParts] at hm
    simp [changesPart, changesTime, touchesAll] at h
  | _ => cases i <;> simp_all [partsOf, loaderParts, changesPart, changesList, changesPeers, changesSetup,
      changesWind, changesInputs, changesSlot, changesStore, orderCarried, touchesAll]

theorem enterReset_writes (st : Store) (s : State) : Writes [.store, .reset] s (enterReset st s) := ⟨fun p hp => by
  cases p with
  | store => simp at hp
  | reset => simp at hp
  | _ => rfl⟩

/-- A row changes no part for which it is not named. -/
theorem exec_samePart {i : Instr} (ht : exec i s = .next t) {p : Part} (h : changesPart p (rowOf i) = false) :
    samePart p s t := by
  have reset (st : Store) (hs : ¬p = .store) (hr : ¬p = .reset) : samePart p s (enterReset st s) :=
    (enterReset_writes st s).same p (by simp [hs, hr])
  obtain ⟨hplain, -, rfl⟩ | ⟨ms, cuts, ce, hrow, rfl⟩ | ⟨ms, lost, cuts, ce, hrow, rfl⟩ | ⟨hrow, rfl⟩ := exec_cases ht
  · exact (work_writes hplain s).same p (not_mem_partsOf h)
  · rw [hrow] at h
    unfold assertReset
    split
    · exact reset _ (by rintro rfl; simp [changesPart, changesStore] at h) (by rintro rfl; simp [changesPart] at h)
    · exact samePart_refl p s
  · rw [hrow] at h
    exact reset _ (by rintro rfl; simp [changesPart, changesStore] at h) (by rintro rfl; simp [changesPart] at h)
  · rw [hrow] at h
    cases p with
    | queue =>
      split
      · show (startInstant s).pending = s.pending
        unfold startInstant powerOn
        split
        · rfl
        · exact (changeList_writes _ _ _).same .queue (by simp)
      · rfl
    | _ => simp [changesPart, changesTime, changesList, changesPeers, changesSetup, changesWind, changesInputs,
      changesSlot,
        changesStore, touchesAll] at h

/-- Settles O9: each row writes its own parts, and the statement names it for each of them. -/
theorem frameOfTheRecords : Obligations.FrameOfTheRecords := by
  intro i s t ht c
  exact ⟨exec_samePart (p := .time) ht, exec_samePart (p := .list) ht, exec_samePart (p := .peers) ht,
    exec_samePart (p := .setup) ht, exec_samePart (p := .wind) ht, exec_samePart (p := .inputs) ht,
    exec_samePart (p := .slot) ht, exec_samePart (p := .store) ht⟩

/-! ## Outputs (11.4, R183) -/

theorem work_live_state {i : Instr} (hi : Plain i) (s : State) : (work (workOf i) s).inReset = s.inReset :=
  (work_writes hi s).same .reset (partsOf_quiet i).1

theorem startInstant_inReset (s : State) : (startInstant s).inReset = false := by
  unfold startInstant powerOn
  split
  · rfl
  · exact (changeList_writes _ _ _).same .reset (by simp)

theorem exec_outputsRight {i : Instr} (h : OutputsRight s) (ht : exec i s = .next t) : OutputsRight t := by
  obtain ⟨hplain, -, rfl⟩ | ⟨ms, cuts, ce, -, rfl⟩ | ⟨ms, lost, cuts, ce, -, rfl⟩ | ⟨-, rfl⟩ := exec_cases ht
  · cases hr : s.inReset with
    | true => rwa [work_reset _ _ hr]
    | false =>
      have hlive : (workOf (rowOf i) s).inReset = false :=
        ((workOf_writes hplain s).same .reset (partsOf_quiet _).1).trans hr
      rw [work_live _ _ hr]
      exact outputsRight_settle _ hlive
  · unfold assertReset
    split
    · exact outputsRight_enterReset ..
    · exact h
  · exact outputsRight_enterReset ..
  · split
    · exact outputsRight_drive (startInstant_inReset s)
    · exact h

theorem idle_outputsRight (h : OutputsRight s) : OutputsRight (idle s) := by
  unfold idle
  split
  · exact h
  rename_i hr
  split
  · exact h
  split
  · exact outputsRight_settle (s := advance 1 s) _ (Bool.eq_false_iff.mpr hr)
  · exact h

/-- Settles O8: every command but a short pulse of RESET ends by driving the outputs, or by putting them safe. -/
theorem everyStepKeepsOutputs : Obligations.EveryStepKeepsOutputs := by
  intro s t h ht
  cases hp : s.pending with
  | nil =>
    rw [step_idle hp] at ht
    cases ht
    exact idle_outputsRight h
  | cons c rest =>
    rw [step_command hp] at ht
    exact exec_outputsRight (s := { s with pending := rest }) h ht

/-! ## The step and the state of reset -/

/-- Settles O1. -/
theorem stepRunsFrontCommand : Obligations.StepRunsFrontCommand := fun _ _ _ h => step_command h

theorem idle_due {c : Instr} {rest : List Instr} (hl : Live s) (h : dueCommands s = c :: rest) :
    idle s = { s with pending := [c] } := by
  unfold Live at hl
  simp [idle, hl, h]

theorem idle_time (hl : Live s) (h : dueCommands s = []) :
    idle s = if s.env.now % controlMs < controlMs - 1 then settle (intervalOf s) (advance 1 s) else s := by
  unfold Live at hl
  simp [idle, hl, h]

/-- Settles O2: the four cases of an empty queue. -/
theorem idleStationRunsItsTimers : Obligations.IdleStationRunsItsTimers := by
  intro s hq
  rw [step_idle hq]
  refine ⟨fun hr => by simp [idle, hr], fun hl c rest hd => by rw [idle_due hl hd], fun hl hd hn => ?_,
    fun hl hd hn => ?_⟩
  · refine ⟨_, rfl, ?_⟩
    rw [idle_time hl hd, if_pos (show s.env.now % controlMs < controlMs - 1 from hn)]
    exact ⟨rfl, hq, hl, rfl, by rw [settle_axes]; rfl, by rw [settle_axes]; rfl⟩
  · rw [idle_time hl hd, if_neg (show ¬s.env.now % controlMs < controlMs - 1 from hn)]

theorem peers_reset : State.reset.env.peers = [] := rfl
theorem secA_reset : State.reset.env.setup.secA = none := rfl

theorem tableRight_reset : TableRight State.reset := by
  rw [TableRight, peers_reset, secA_reset]
  simp [Rising]

theorem listRight_reset : ListRight State.reset := ⟨by decide, by decide, by decide⟩

theorem storeRight_reset : StoreRight State.reset :=
  ⟨by decide, nofun, fun _ => ⟨by decide, by decide⟩⟩

theorem safe_reset : Safe State.reset :=
  ⟨nofun, summaryOf_start.symm, rfl, tableRight_reset, listRight_reset, storeRight_reset⟩

/-- Settles O3. -/
theorem resetStateIsSafe : Obligations.ResetStateIsSafe :=
  ⟨safe_reset, rfl, rfl, rfl, rfl, rfl, rfl, rfl, rfl⟩

end Sys2Proof.Machine
end

section
/-! PROOFS. The peer table's records: what placing, dropping and finding one do to the list, and that every step keeps the bounds of R123, R124 and R126. -/

namespace Sys2Proof.Machine

/-! ## Placing and dropping a record -/

theorem mem_putPeer {p q : Peer} {l : List Peer} (h : q ∈ putPeer p l) : q = p ∨ q ∈ l := by
  induction l with
  | nil => exact .inl (by simpa [putPeer] using h)
  | cons r rs ih =>
    unfold putPeer at h
    split at h
    · simpa using h
    split at h
    · exact (List.mem_cons.mp h).imp_right (List.mem_cons_of_mem _)
    · obtain rfl | hq := List.mem_cons.mp h
      · exact .inr (.head _)
      · exact (ih hq).imp_right (List.mem_cons_of_mem _)

theorem mem_dropPeer {n : Nat} {q : Peer} {l : List Peer} : q ∈ dropPeer n l ↔ q ∈ l ∧ ¬q.station = n := by
  simp [dropPeer]

theorem rising_putPeer (p : Peer) {l : List Peer} (h : Rising l) : Rising (putPeer p l) := by
  induction l with
  | nil => exact ⟨nofun, trivial⟩
  | cons q qs ih =>
    obtain ⟨hq, hqs⟩ := h
    unfold putPeer
    split
    · rename_i hlt
      refine ⟨fun r hr => ?_, hq, hqs⟩
      obtain rfl | hr := List.mem_cons.mp hr
      · exact hlt
      · exact hlt.trans (hq r hr)
    split
    · rename_i heq
      exact ⟨fun r hr => by rw [heq]; exact hq r hr, hqs⟩
    · refine ⟨fun r hr => ?_, ih hqs⟩
      obtain rfl | hr := mem_putPeer hr
      · omega
      · exact hq r hr

theorem rising_filter (f : Peer → Bool) {l : List Peer} (h : Rising l) : Rising (l.filter f) := by
  induction l with
  | nil => trivial
  | cons q qs ih =>
    obtain ⟨hq, hqs⟩ := h
    rw [List.filter_cons]
    split
    · exact ⟨fun r hr => hq r (List.mem_of_mem_filter hr), ih hqs⟩
    · exact ih hqs

theorem rising_map {f : Peer → Peer} (hf : ∀ p, (f p).station = p.station) {l : List Peer} (h : Rising l) :
    Rising (l.map f) := by
  induction l with
  | nil => trivial
  | cons q qs ih =>
    obtain ⟨hq, hqs⟩ := h
    refine ⟨fun r hr => ?_, ih hqs⟩
    obtain ⟨p, hp, rfl⟩ := List.mem_map.mp hr
    rw [hf, hf]
    exact hq p hp

theorem dropPeer_of_above {n : Nat} {l : List Peer} (h : ∀ q ∈ l, n < q.station) : dropPeer n l = l := by
  refine List.filter_eq_self.mpr fun q hq => ?_
  have := h q hq
  simp; omega

/-- A record takes the room of its station's earlier one, or one more. -/
theorem length_putPeer (p : Peer) {l : List Peer} (h : Rising l) :
    (putPeer p l).length = (dropPeer p.station l).length + 1 := by
  induction l with
  | nil => rfl
  | cons q qs ih =>
    obtain ⟨hq, hqs⟩ := h
    unfold putPeer
    split
    · rename_i hlt
      rw [dropPeer_of_above fun r hr => ?_]
      · rfl
      obtain rfl | hr := List.mem_cons.mp hr
      · exact hlt
      · exact hlt.trans (hq r hr)
    split
    · rename_i heq
      have hd : dropPeer p.station (q :: qs) = qs := by
        rw [dropPeer, List.filter_cons, if_neg (by simp [heq])]
        exact dropPeer_of_above fun r hr => by rw [heq]; exact hq r hr
      rw [hd, List.length_cons]
    · rename_i hne
      have hd : dropPeer p.station (q :: qs) = q :: dropPeer p.station qs := by
        rw [dropPeer, List.filter_cons, if_pos (by simpa using fun he => hne he.symm), dropPeer]
      rw [hd, List.length_cons, List.length_cons, ih hqs]

theorem length_dropPeer_le (n : Nat) (l : List Peer) : (dropPeer n l).length ≤ l.length := List.length_filter_le ..

theorem length_dropPeer_lt {p : Peer} {l : List Peer} (h : p ∈ l) : (dropPeer p.station l).length < l.length := by
  refine Nat.lt_of_le_of_ne (length_dropPeer_le ..) fun he => ?_
  have := (List.length_filter_eq_length_iff.mp he) p h
  simp at this

theorem findPeer_mem {n : Nat} {p : Peer} {l : List Peer} (h : findPeer n l = some p) : p ∈ l ∧ p.station = n :=
  ⟨List.mem_of_find?_eq_some h, by simpa using List.find?_some h⟩

/-! ## The record that a newcomer evicts (R129) -/

theorem elder_mem {acc : Option Peer} {p q : Peer} (h : elder acc p = some q) : q = p ∨ acc = some q := by
  unfold elder at h
  split at h
  · exact .inl (Option.some.inj h).symm
  · split at h
    · exact .inl (Option.some.inj h).symm
    · exact .inr h

theorem foldl_elder_mem (l : List Peer) : ∀ {acc : Option Peer} {q : Peer}, l.foldl elder acc = some q →
    q ∈ l ∨ acc = some q := by
  induction l with
  | nil => exact fun h => .inr h
  | cons p ps ih =>
    intro acc q h
    obtain hm | he := ih h
    · exact .inl (List.mem_cons_of_mem _ hm)
    · refine (elder_mem he).imp_left fun hq => ?_
      rw [hq]; exact .head _

theorem evicted_mem {new old : Peer} {l : List Peer} (h : evicted new l = some old) : old ∈ l := by
  have of (f : Peer → Bool) {q : Peer} (hq : (l.filter f).foldl elder none = some q) : q ∈ l :=
    (foldl_elder_mem _ hq).elim List.mem_of_mem_filter nofun
  unfold evicted at h
  split at h
  · cases h
    exact of _ ‹_›
  split at h
  · exact of _ h
  · exact absurd h nofun

/-! ## The bounds of the table (R123, R124) -/

/-- The bounds of the peer table under a setup, each by its name. -/
structure TableFits (x : Setup) (l : List Peer) : Prop where
  few : l.length ≤ tableMax
  rising : Rising l
  range : ∀ p ∈ l, 1 ≤ p.station ∧ p.station ≤ 64
  foreign : ∀ a, x.secA = some a → ∀ p ∈ l, p.station ≠ a.station
  unread : x.secA = none → l = []
  first : x.loading = some .a → x.secA = none

theorem tableRight_iff (s : State) : TableRight s ↔ TableFits s.env.setup s.env.peers :=
  ⟨fun ⟨h1, h2, h3, h4, h5, h6⟩ => ⟨h1, h2, h3, h4, h5, h6⟩, fun h => ⟨h.1, h.2, h.3, h.4, h.5, h.6⟩⟩

variable {x : Setup} {l : List Peer}

theorem TableFits.drop (n : Nat) (h : TableFits x l) : TableFits x (dropPeer n l) where
  few := (length_dropPeer_le n l).trans h.few
  rising := rising_filter _ h.rising
  range p hp := h.range p (List.mem_of_mem_filter hp)
  foreign a ha p hp := h.foreign a ha p (List.mem_of_mem_filter hp)
  unread hx := by rw [h.unread hx]; rfl
  first := h.first

theorem TableFits.map {f : Peer → Peer} (hf : ∀ p, (f p).station = p.station) (h : TableFits x l) :
    TableFits x (l.map f) where
  few := by rw [List.length_map]; exact h.few
  rising := rising_map hf h.rising
  range p hp := by
    obtain ⟨q, hq, rfl⟩ := List.mem_map.mp hp
    rw [hf]; exact h.range q hq
  foreign a ha p hp := by
    obtain ⟨q, hq, rfl⟩ := List.mem_map.mp hp
    rw [hf]; exact h.foreign a ha q hq
  unread hx := by rw [h.unread hx]; rfl
  first := h.first

/-- A station that the table may hold a record of. -/
def Admissible (x : Setup) (p : Peer) : Prop :=
  (1 ≤ p.station ∧ p.station ≤ 64) ∧ ∃ a, x.secA = some a ∧ p.station ≠ a.station

theorem TableFits.put {p : Peer} (hp : Admissible x p) (hl : (dropPeer p.station l).length < tableMax)
    (h : TableFits x l) : TableFits x (putPeer p l) := by
  obtain ⟨hr, a, ha, hne⟩ := hp
  refine ⟨by rw [length_putPeer p h.rising]; exact hl, rising_putPeer p h.rising, fun q hq => ?_, fun b hb q hq => ?_,
    fun hx => absurd (hx.symm.trans ha) nofun, h.first⟩
  · obtain rfl | hq := mem_putPeer hq
    · exact hr
    · exact h.range q hq
  · obtain rfl | hq := mem_putPeer hq
    · rw [Option.some.inj (hb.symm.trans ha)]; exact hne
    · exact h.foreign b hb q hq

/-- A record of a station that the table holds one of may be placed. -/
theorem TableFits.replace {p old : Peer} (hold : old ∈ l) (hs : p.station = old.station) (h : TableFits x l) :
    TableFits x (putPeer p l) := by
  refine h.put ⟨hs ▸ h.range old hold, ?_⟩ (hs ▸ (length_dropPeer_lt hold).trans_le h.few)
  cases ha : x.secA with
  | none =>
    rw [h.unread ha] at hold
    exact absurd hold nofun
  | some a => exact ⟨a, rfl, hs ▸ h.foreign a ha old hold⟩

/-! ## The table's operations -/

variable {s : State}

@[simp] theorem recountWind_peers (s : State) : (recountWind s).env.peers = s.env.peers := rfl
@[simp] theorem recountWind_setup (s : State) : (recountWind s).env.setup = s.env.setup := rfl

@[simp] theorem changePeers_peers (l : List Peer) (w f : Bool) (s : State) : (changePeers l w f s).env.peers = l := by
  cases w <;> cases f <;> rfl

@[simp] theorem changePeers_setup (l : List Peer) (w f : Bool) (s : State) :
    (changePeers l w f s).env.setup = s.env.setup := by
  cases w <;> cases f <;> rfl

/-- A table change keeps the bounds where the new records meet them. -/
theorem tableRight_changePeers {w f : Bool} (h : TableFits s.env.setup l) : TableRight (changePeers l w f s) := by
  rw [tableRight_iff, changePeers_peers, changePeers_setup]
  exact h

theorem tableRight_takePeer {p : Peer} (hp : Admissible s.env.setup p) (h : TableRight s) :
    TableRight (takePeer p s) := by
  have hfit := (tableRight_iff s).mp h
  unfold takePeer
  split
  · rename_i old hold
    obtain ⟨hmem, hs⟩ := findPeer_mem hold
    unfold updatePeer
    split
    · exact tableRight_changePeers (hfit.replace hmem hs.symm)
    · exact tableRight_changePeers (s := freeSlot s) (hfit.drop _)
  split
  · unfold admitPeer
    split
    · exact tableRight_changePeers (hfit.put hp ((length_dropPeer_le ..).trans_lt ‹_›))
    split
    · rename_i old hold
      exact tableRight_changePeers ((hfit.drop _).put hp
        ((length_dropPeer_le ..).trans_lt ((length_dropPeer_lt (evicted_mem hold)).trans_le hfit.few)))
    · exact h
  · exact h

theorem tableRight_takeBeacon (n : Byte) (bytes : List Byte) (h : TableRight s) :
    TableRight (takeBeacon n bytes s) := by
  unfold takeBeacon
  split
  · exact h
  rename_i a ha
  split
  · exact h
  split
  · exact h
  rename_i hne
  split
  · rename_i hin
    simp only []
    split
    · exact tableRight_takePeer (s := { s with core := hearOther s.env s.core })
        ⟨by simpa [inRange, peerOf] using hin, a, ha, hne⟩ h
    · exact h
  · exact h

theorem tableRight_markStale (n : Nat) (h : TableRight s) : TableRight (markStale n s) := by
  unfold markStale
  split
  · exact h
  rename_i p hp
  split
  · exact tableRight_changePeers (((tableRight_iff s).mp h).replace (findPeer_mem hp).1 rfl)
  · exact h

theorem tableRight_expirePeer (n : Nat) (h : TableRight s) : TableRight (expirePeer n s) := by
  unfold expirePeer
  split
  · exact h
  split
  · exact tableRight_changePeers (s := freeSlot s) (((tableRight_iff s).mp h).drop n)
  · exact h

theorem tableRight_advance (dt : Nat) (h : TableRight s) : TableRight (advance dt s) :=
  (tableRight_iff _).mpr (((tableRight_iff s).mp h).map fun _ => rfl)

/-! ## The loader -/

theorem TableFits.setup {y : Setup} (h : TableFits x l) (ha : y.secA = x.secA) (hl : ¬y.loading = some .a) :
    TableFits y l :=
  ⟨h.few, h.rising, h.range, fun a hy => h.foreign a (ha ▸ hy), fun hy => h.unread (ha ▸ hy), fun hy => absurd hy hl⟩

theorem failSection_setup (x : SectionId) (s : State) : (failSection x s).env.setup = s.env.setup :=
  (failSection_writes x s).same .setup (by decide)

theorem restoreCold_setup (s : State) : (restoreCold s).env.setup = s.env.setup :=
  (restoreCold_writes s).same .setup (by decide)

theorem beginBins_setup (s : State) : (beginBins s).env.setup = s.env.setup := rfl

/-- Only section A gives the station its identity; no section moves the loader by itself. -/
theorem loadOf_setup (bytes : List Byte) (n : SectionId) (s : State) :
    (¬n = .a → (loadOf bytes n s).env.setup.secA = s.env.setup.secA)
      ∧ (loadOf bytes n s).env.setup.loading = s.env.setup.loading := by
  cases n with
  | a =>
    refine ⟨fun h => absurd rfl h, ?_⟩
    simp only [loadOf, loadA]
    split <;> simp only [failSection_setup, withSetup_setup]
  | b =>
    simp only [loadOf, loadB]
    split <;> simp only [failSection_setup, withSetup_setup, implies_true, and_self]
  | c =>
    simp only [loadOf, loadC]
    split <;> simp only [failSection_setup, beginBins_setup, withSetup_setup, implies_true, and_self]
  | d =>
    simp only [loadOf, loadD]
    split <;> simp only [failSection_setup, restoreCold_setup, withSetup_setup, implies_true, and_self]

theorem nextSection_ne_a (n : SectionId) : ¬nextSection n = some .a := by cases n <;> decide

theorem loadOf_peers (bytes : List Byte) (n : SectionId) (s : State) : (loadOf bytes n s).env.peers = s.env.peers :=
  (loadOf_writes bytes n s).same .peers (by decide)

/-- The loader keeps the bounds: the table is empty until section A is dealt with (R124, R180). -/
theorem tableRight_loadSection (bytes : List Byte) (h : TableRight s) : TableRight (loadSection bytes s) := by
  cases hx : s.env.setup.loading with
  | none => rw [loadSection_none hx]; exact h
  | some n =>
    have hfit := (tableRight_iff s).mp h
    rw [loadSection_some hx, tableRight_iff, loadOf_peers]
    have hl : ¬(loadOf bytes n (withSetup { s.env.setup with loading := nextSection n } s)).env.setup.loading =
        some .a := by
      rw [(loadOf_setup ..).2]; exact nextSection_ne_a n
    by_cases hn : n = .a
    · subst hn
      have hp : s.env.peers = [] := hfit.unread (hfit.first hx)
      show TableFits _ s.env.peers
      rw [hp]
      exact ⟨Nat.zero_le _, trivial, nofun, fun _ _ => nofun, fun _ => rfl, fun h => absurd h hl⟩
    · exact hfit.setup ((loadOf_setup bytes n _).1 hn) hl

/-! ## Every step -/

/-- The bounds speak of the records, the identity and the loader's place. -/
theorem TableRight.congr {t : State} (h : TableRight s) (hp : t.env.peers = s.env.peers)
    (ha : t.env.setup.secA = s.env.setup.secA) (hl : t.env.setup.loading = s.env.setup.loading) : TableRight t := by
  have hfit := (tableRight_iff s).mp h
  rw [tableRight_iff, hp]
  exact ⟨hfit.few, hfit.rising, hfit.range, fun a hy => hfit.foreign a (ha ▸ hy), fun hy => hfit.unread (ha ▸ hy),
    fun hy => ha ▸ hfit.first (hl ▸ hy)⟩

theorem tableRight_readEncoders (z : Samples) (h : TableRight s) : TableRight (readEncoders z s) := by
  unfold readEncoders
  split
  · simp only []
    split
    · exact h
    · exact h.congr rfl rfl rfl
  · exact h

theorem tableRight_controlInterval (z : Samples) (h : TableRight s) : TableRight (controlInterval z s) :=
  tableRight_readEncoders z (s := sampleAll z (advance (toIntervalEnd s.env.now) s))
    (tableRight_advance (toIntervalEnd s.env.now) h)

theorem tableRight_completeConfiguration (h : TableRight s) : TableRight (completeConfiguration s) := by
  unfold completeConfiguration
  split
  · exact h.congr rfl rfl rfl
  · exact h

theorem tableRight_workOf {i : Instr} (hi : Plain i) (h : TableRight s) : TableRight (workOf i s) := by
  have frame (hp : ¬Part.peers ∈ partsOf i) (hs : ¬Part.setup ∈ partsOf i) : TableRight (workOf i s) := by
    have hsame := (workOf_writes hi s).same
    have hsetup : (workOf i s).env.setup = s.env.setup := hsame .setup hs
    exact h.congr (hsame .peers hp) (congrArg _ hsetup) (congrArg _ hsetup)
  cases i with
  | peerBeacon n l => exact tableRight_takeBeacon n l h
  | peerStale n => exact tableRight_markStale n h
  | peerExpiry n => exact tableRight_expirePeer n h
  | controlInterval z => exact tableRight_controlInterval z h
  | sectionLoaded l => exact tableRight_loadSection l h
  | configurationComplete => exact tableRight_completeConfiguration h
  | _ => exact frame (by simp [partsOf]) (by simp [partsOf])

/-- The start values of a power-on, before the cold record is placed (R76, R78). -/
def emptied (s : State) : State :=
  { s with
    inReset := false, env := startEnv, core := startCore, store := emptyStore, slot := startSlot,
    outputs := safeOutputs }

theorem powerOn_eq (s : State) : powerOn s = setOwned .point .system (emptied s) := rfl

theorem setOwned_writes (k : LockKind) (o : Origin) (s : State) : Writes [.list, .store] s (setOwned k o s) :=
  changeList_writes ..

theorem tableRight_startInstant (s : State) : TableRight (startInstant s) := by
  have hstart : TableFits startSetup [] := ⟨Nat.zero_le _, trivial, nofun, fun _ _ => nofun, fun _ => rfl, fun _ => rfl⟩
  unfold startInstant
  split
  · exact (tableRight_iff _).mpr hstart
  · have hsame := (setOwned_writes .point .system (emptied s)).same
    have hsetup : (powerOn s).env.setup = startSetup := hsame .setup (by decide)
    have hpeers : (powerOn s).env.peers = [] := hsame .peers (by decide)
    rw [tableRight_iff, hsetup, hpeers]
    exact hstart

theorem exec_tableRight {i : Instr} {t : State} (h : TableRight s) (ht : exec i s = .next t) : TableRight t := by
  obtain ⟨hplain, -, rfl⟩ | ⟨ms, cuts, ce, -, rfl⟩ | ⟨ms, lost, cuts, ce, -, rfl⟩ | ⟨-, rfl⟩ := exec_cases ht
  · unfold work
    split
    · exact h
    · exact tableRight_workOf hplain h
  · unfold assertReset
    split <;> exact h
  · exact h
  · split
    · exact tableRight_startInstant s
    · exact h

theorem idle_tableRight (h : TableRight s) : TableRight (idle s) := by
  unfold idle
  split
  · exact h
  split
  · exact h
  split
  · exact tableRight_advance 1 h
  · exact h

/-- Settles O6: the table is written by the peers' rows, its time and the loader alone, and each keeps the bounds. -/
theorem everyStepKeepsPeerTable : Obligations.EveryStepKeepsPeerTable := by
  intro s t h ht
  cases hp : s.pending with
  | nil =>
    rw [step_idle hp] at ht
    cases ht
    exact idle_tableRight h
  | cons c rest =>
    rw [step_command hp] at ht
    exact exec_tableRight (s := { s with pending := rest }) h ht

end Sys2Proof.Machine
end

section
/-! PROOFS. The lockout list and its store: the identities that a list, its waiting writes and its marks account for, and that every step keeps the bounds of R69, in force and rebuilt (R74, R79, R81). -/

namespace Sys2Proof.Machine

/-! ## Identities -/

/-- The identities of a list's records. -/
def idents (ls : List Lock) : List Ident := ls.map lockIdent

theorem mem_idents {i : Ident} {ls : List Lock} : i ∈ idents ls ↔ ∃ l ∈ ls, lockIdent l = i := by simp [idents]

theorem mem_idents_of_mem {l : Lock} {ls : List Lock} (h : l ∈ ls) :
    lockIdent l ∈ idents ls :=
  mem_idents.mpr ⟨l, h, rfl⟩

theorem idents_append (a b : List Lock) : idents (a ++ b) = idents a ++ idents b := List.map_append

theorem idents_map {f : Lock → Lock} (hf : ∀ l, lockIdent (f l) = lockIdent l) (ls : List Lock) :
    idents (ls.map f) = idents ls := by simp [idents, hf]

theorem nodup_idents_filter (f : Lock → Bool) {ls : List Lock} (h : (idents ls).Nodup) : (idents (ls.filter f)).Nodup :=
  h.sublist (List.filter_sublist.map lockIdent)

theorem idents_filter_subset (f : Lock → Bool) {ls : List Lock} {i : Ident} (h : i ∈ idents (ls.filter f)) :
    i ∈ idents ls := by
  obtain ⟨l, hl, rfl⟩ := mem_idents.mp h
  exact mem_idents_of_mem (List.mem_of_mem_filter hl)

theorem findIdent_none {i : Ident} {ls : List Lock} : findIdent i ls = none ↔ ¬i ∈ idents ls := by
  simp [findIdent, mem_idents]

theorem findIdent_some {i : Ident} {ls : List Lock} {l : Lock} (h : findIdent i ls = some l) :
    l ∈ ls ∧ lockIdent l = i :=
  ⟨List.mem_of_find?_eq_some h, by simpa using List.find?_some h⟩

theorem not_mem_idents_dropIdent (i : Ident) (ls : List Lock) : ¬i ∈ idents (dropIdent i ls) := by
  simp [mem_idents, dropIdent]

theorem idents_settleIdent (i : Ident) (ls : List Lock) : idents (settleIdent i ls) = idents ls :=
  idents_map (fun l => by split <;> simp) ls

theorem nodup_idents_append {l : Lock} {ls : List Lock} (h : (idents ls).Nodup) (hl : ¬lockIdent l ∈ idents ls) :
    (idents (ls ++ [l])).Nodup := by
  rw [idents_append, List.nodup_append]
  refine ⟨h, List.nodup_singleton _, fun a ha b hb hab => hl ?_⟩
  rw [show b = lockIdent l by simpa [idents] using hb] at hab
  exact hab ▸ ha

theorem nodup_idents_putOwned (k : LockKind) (o : Origin) {ls : List Lock} (h : (idents ls).Nodup) :
    (idents (putOwned k o ls)).Nodup := by
  cases hf : findIdent (identOf k o) ls with
  | none =>
    rw [putOwned_absent hf]
    exact nodup_idents_append h (by rw [lockIdent_newLock]; exact findIdent_none.mp hf)
  | some r =>
    by_cases hk : r.kind = k
    · rwa [putOwned_sameKind hf hk, idents_settleIdent]
    · rw [putOwned_otherKind hf hk]
      exact nodup_idents_append (nodup_idents_filter _ h)
        (by rw [lockIdent_newLock]; exact not_mem_idents_dropIdent _ _)

/-- Only the identity put changes. -/
theorem mem_idents_putOwned {k : LockKind} {o : Origin} {i : Ident} (hi : ¬i = identOf k o) (ls : List Lock) :
    i ∈ idents (putOwned k o ls) ↔ i ∈ idents ls := by
  simp only [mem_idents]
  constructor
  · rintro ⟨l, hl, rfl⟩
    exact ⟨l, (mem_putOwned_of_ne hi ls).mp hl, rfl⟩
  · rintro ⟨l, hl, rfl⟩
    exact ⟨l, (mem_putOwned_of_ne hi ls).mpr hl, rfl⟩

theorem mem_idents_dropIdent {i j : Ident} (h : ¬j = i) (ls : List Lock) :
    j ∈ idents (dropIdent i ls) ↔ j ∈ idents ls := by
  simp only [mem_idents]
  constructor
  · rintro ⟨l, hl, rfl⟩
    exact ⟨l, (mem_dropIdent_of_ne h ls).mp hl, rfl⟩
  · rintro ⟨l, hl, rfl⟩
    exact ⟨l, (mem_dropIdent_of_ne h ls).mpr hl, rfl⟩

theorem isConsoleIdent_lockIdent (l : Lock) : isConsoleIdent (lockIdent l) = isConsoleOrigin l.origin := by
  cases h : l.origin <;> simp [lockIdent, identOf, h, isConsoleIdent, isConsoleOrigin]

/-- The console records of a list, counted by their identities. -/
theorem countOrigin_console (ls : List Lock) :
    countOrigin isConsoleOrigin ls = ((idents ls).filter isConsoleIdent).length := by
  simp only [countOrigin, idents, List.filter_map, List.length_map]
  congr 1
  exact List.filter_congr fun l _ => (isConsoleIdent_lockIdent l).symm

/-! ## At most so many identities -/

/-- No list of different identities with a property is longer than n. -/
def AtMost (n : Nat) (p : Ident → Prop) : Prop := ∀ l : List Ident, l.Nodup → (∀ i ∈ l, p i) → l.length ≤ n

theorem AtMost.mono {n : Nat} {p q : Ident → Prop} (h : AtMost n p) (hq : ∀ i, q i → p i) : AtMost n q :=
  fun l hl hm => h l hl fun i hi => hq i (hm i hi)

theorem atMost_of_list {n : Nat} {p : Ident → Prop} (u : List Ident) (hu : u.length ≤ n) (h : ∀ i, p i → i ∈ u) :
    AtMost n p :=
  fun _ hl hm => ((hl.subperm fun i hi => h i (hm i hi)).length_le).trans hu

/-- Identities of keys and of the system: five. -/
theorem atMost_plain : AtMost 5 fun i => isConsoleIdent i = false :=
  atMost_of_list [.key 0, .key 1, .key 2, .key 3, .system] (by decide) fun i hi => by
    cases i with
    | key n => fin_cases n <;> simp
    | system => simp
    | console k c => simp [isConsoleIdent] at hi

/-! ## What the list, the writes and the marks account for -/

/-- The identities of the list, those whose change is being taken, and those whose write has not ended. -/
def Accounted (ls : List Lock) (ps : List Ident) (st : Store) (i : Ident) : Prop :=
  i ∈ idents ls ∨ i ∈ ps ∨ i ∈ unwritten st

/-- A store follows a list while the changes of some identities are being taken: what it holds and marks is accounted
for, what the write in progress has removed is not stored, and the consoles keep their quota (R74, R79). -/
structure Follows (ls : List Lock) (ps : List Ident) (st : Store) : Prop where
  records : (idents st.records).Nodup
  queue : st.queue.Nodup
  stored : ∀ i ∈ idents st.records, Accounted ls ps st i
  marked : ∀ m ∈ st.marks, Accounted ls ps st (markIdent m)
  absent : ∀ i t, st.writing = some (i, t) → ¬i ∈ st.queue → ¬i ∈ idents ls → ¬i ∈ ps → ¬i ∈ idents st.records
  quota : AtMost consoleMax fun i => isConsoleIdent i = true ∧ Accounted ls ps st i

variable {ls : List Lock} {ps : List Ident} {st : Store}

theorem mem_unwritten {i : Ident} : i ∈ unwritten st ↔ i ∈ st.queue ∨ ∃ t, st.writing = some (i, t) := by
  unfold unwritten
  split
  · simp_all
  · rename_i j t hw
    rw [hw]
    split
    · rename_i hq
      refine ⟨.inl, fun h => h.elim id fun ⟨u, hu⟩ => ?_⟩
      cases hu
      simpa using hq
    · simp only [List.mem_append, List.mem_singleton, Option.some.injEq, Prod.mk.injEq, exists_and_left, exists_eq',
        and_true]
      exact or_congr_right eq_comm

theorem nodup_unwritten (h : st.queue.Nodup) : (unwritten st).Nodup := by
  unfold unwritten
  split
  · exact h
  split
  · exact h
  · rename_i hq
    rw [List.nodup_append]
    refine ⟨h, List.nodup_singleton _, fun a ha b hb hab => hq ?_⟩
    simp only [List.mem_singleton] at hb
    simpa [← hb, ← hab] using ha

/-- The identities that the quota counts: the list's consoles, and the console removals not yet written. -/
def counted (ls : List Lock) (st : Store) : List Ident :=
  (idents ls).filter isConsoleIdent ++ (unwritten st).filter fun i => isConsoleIdent i && (findIdent i ls).isNone

theorem consoleCount_eq (ls : List Lock) (st : Store) : consoleCount ls st = (counted ls st).length := by
  rw [counted, List.length_append, ← countOrigin_console]
  rfl

theorem mem_counted {i : Ident} : i ∈ counted ls st ↔ isConsoleIdent i = true ∧ Accounted ls [] st i := by
  simp only [counted, List.mem_append, List.mem_filter, Bool.and_eq_true, Option.isNone_iff_eq_none, findIdent_none,
    Accounted, List.not_mem_nil, false_or]
  by_cases hi : i ∈ idents ls <;> simp [hi, and_comm]

theorem nodup_counted (hl : (idents ls).Nodup) (hq : st.queue.Nodup) : (counted ls st).Nodup := by
  rw [counted, List.nodup_append]
  refine ⟨hl.filter _, (nodup_unwritten hq).filter _, fun a ha b hb hab => ?_⟩
  simp only [List.mem_filter, Bool.and_eq_true, Option.isNone_iff_eq_none, findIdent_none] at ha hb
  obtain ⟨hmem, -⟩ := ha
  obtain ⟨-, -, hno⟩ := hb
  exact hno (hab ▸ hmem)

/-- The quota of R74 is the bound on the identities accounted for. -/
theorem quota_iff (hl : (idents ls).Nodup) (hq : st.queue.Nodup) (n : Nat) :
    (AtMost n fun i => isConsoleIdent i = true ∧ Accounted ls [] st i) ↔ consoleCount ls st ≤ n := by
  rw [consoleCount_eq]
  exact ⟨fun h => h _ (nodup_counted hl hq) fun i hi => mem_counted.mp hi,
    fun h => atMost_of_list _ h fun i hi => mem_counted.mpr hi⟩

/-! ## Writes (R79) -/

theorem mem_idents_writeContent {i j : Ident} {stored : List Lock} (h : j ∈ idents (writeContent ls i stored)) :
    (j ∈ idents stored ∧ (j = i → i ∈ idents ls)) ∨ (j = i ∧ i ∈ idents ls) := by
  unfold writeContent at h
  split at h
  · rename_i hf
    refine .inl ⟨idents_filter_subset _ h, fun hji => ?_⟩
    exact absurd (hji ▸ h) (not_mem_idents_dropIdent _ _)
  · rename_i l hf
    obtain ⟨hmem, rfl⟩ := findIdent_some hf
    have hin := mem_idents_of_mem hmem
    split at h
    · rw [idents_map] at h
      · exact .inl ⟨h, fun _ => hin⟩
      · intro r
        split
        · rename_i hr
          exact hr.symm
        · rfl
    · rw [idents_append, List.mem_append] at h
      obtain hold | hnew := h
      · exact .inl ⟨idents_filter_subset _ hold, fun _ => hin⟩
      · exact .inr ⟨by simpa [idents] using hnew, hin⟩

theorem nodup_idents_writeContent (i : Ident) {stored : List Lock} (h : (idents stored).Nodup) :
    (idents (writeContent ls i stored)).Nodup := by
  unfold writeContent
  split
  · exact nodup_idents_filter _ h
  · rename_i l hf
    obtain ⟨-, rfl⟩ := findIdent_some hf
    split
    · rwa [idents_map]
      intro r
      split
      · rename_i hr
        exact hr.symm
      · rfl
    · exact nodup_idents_append (nodup_idents_filter _ h) (not_mem_idents_dropIdent _ _)

theorem Accounted.mono {ls' : List Lock} {ps' : List Ident} {st' : Store} {i : Ident}
    (hl : i ∈ idents ls → Accounted ls' ps' st' i) (hp : i ∈ ps → Accounted ls' ps' st' i)
    (hu : i ∈ unwritten st → Accounted ls' ps' st' i) (h : Accounted ls ps st i) : Accounted ls' ps' st' i :=
  h.elim hl fun h => h.elim hp hu

/-- The next write keeps the store following: the same identities are unwritten. -/
theorem Follows.beginWrite (h : Follows ls ps st) : Follows ls ps (beginWrite ls st) := by
  unfold Machine.beginWrite
  split
  · rename_i i rest hw hq
    have hnodup := h.queue
    rw [hq, List.nodup_cons] at hnodup
    obtain ⟨hi, hrest⟩ := hnodup
    have same (j : Ident) (hj : Accounted ls ps st j) :
        Accounted ls ps
          { st with records := writeContent ls i st.records, queue := rest, writing := some (i, 0) } j := by
      refine hj.imp_right (Or.imp_right fun hu => ?_)
      rw [mem_unwritten] at hu ⊢
      rw [hq, hw] at hu
      obtain hu | ⟨t, ht⟩ := hu
      · obtain rfl | hu := List.mem_cons.mp hu
        · exact .inr ⟨0, rfl⟩
        · exact .inl hu
      · cases ht
    have back (j : Ident)
        (hj : Accounted ls ps
          { st with records := writeContent ls i st.records, queue := rest, writing := some (i, 0) } j) :
        Accounted ls ps st j := by
      refine hj.imp_right (Or.imp_right fun hu => ?_)
      rw [mem_unwritten] at hu ⊢
      refine .inl ?_
      rw [hq]
      obtain hu | ⟨t, ht⟩ := hu
      · exact List.mem_cons_of_mem _ hu
      · cases ht
        exact .head _
    refine ⟨nodup_idents_writeContent i h.records, hrest, fun j hj => ?_, fun m hm => same _ (h.marked m hm),
      fun j t hj hjq hjl hjp hjr => ?_, h.quota.mono fun j hj => hj.imp_right (back j)⟩
    · obtain ⟨hj, -⟩ | ⟨rfl, hin⟩ := mem_idents_writeContent hj
      · exact same j (h.stored j hj)
      · exact .inl hin
    · cases hj
      obtain ⟨-, hin⟩ | ⟨-, hin⟩ := mem_idents_writeContent hjr
      · exact hjl (hin rfl)
      · exact hjl hin
  · exact h

/-- A change that is taken is accounted for by its waiting write. -/
theorem Follows.takeChange {m : Mark} (h : Follows ls (markIdent m :: ps) st) : Follows ls ps (takeChange ls m st) := by
  refine Follows.beginWrite ?_
  have hqueue (j : Ident) : j ∈ enqueue (markIdent m) st.queue ↔ j = markIdent m ∨ j ∈ st.queue := by
    unfold enqueue
    split
    · rename_i hc
      refine ⟨.inr, fun hj => hj.elim (fun he => ?_) id⟩
      simpa [he] using hc
    · simp [or_comm]
  have same (j : Ident) : Accounted ls (markIdent m :: ps) st j ↔ Accounted ls ps
      { st with marks := openMark m st.marks, queue := enqueue (markIdent m) st.queue } j := by
    simp only [Accounted, mem_unwritten, hqueue, List.mem_cons]
    tauto
  refine ⟨h.records, ?_, fun j hj => (same j).mp (h.stored j hj), fun x hx => (same _).mp ?_,
    fun j t hw hj hl hp => ?_, h.quota.mono fun j hj => hj.imp_right (same j).mpr⟩
  · show (enqueue (markIdent m) st.queue).Nodup
    unfold enqueue
    split
    · exact h.queue
    · rename_i hc
      rw [List.nodup_append]
      refine ⟨h.queue, List.nodup_singleton _, fun a ha b hb hab => hc ?_⟩
      simp only [List.mem_singleton] at hb
      simpa [← hb, ← hab] using ha
  · have hx' : x ∈ openMark m st.marks := hx
    rw [openMark, List.mem_append, List.mem_singleton] at hx'
    obtain hx' | rfl := hx'
    · exact h.marked x (List.mem_of_mem_filter hx')
    · exact .inr (.inl (.head _))
  · have hj' : ¬(j = markIdent m ∨ j ∈ st.queue) := fun hc => hj ((hqueue j).mpr hc)
    obtain ⟨hne, hjq⟩ := not_or.mp hj'
    exact h.absent j t hw hjq hl fun hc => (List.mem_cons.mp hc).elim hne hp

theorem Follows.takeChanges (ms : List Mark) : ∀ {st : Store}, Follows ls (ms.map markIdent) st →
    Follows ls [] (takeChanges ls ms st) := by
  induction ms with
  | nil => exact fun h => h
  | cons m ms ih => exact fun h => ih h.takeChange

/-- The end of a write: a removal that has been written is no more stored or marked. -/
theorem Follows.endWrite (h : Follows ls [] st) : Follows ls [] (endWrite ls st) := by
  unfold Machine.endWrite
  split
  · exact h
  rename_i i t hw
  split
  · refine Follows.beginWrite ?_
    have less (j : Ident) (hj : Accounted ls [] { st with writing := none, emptying := false } j) :
        Accounted ls [] st j := by
      refine hj.imp_right (Or.imp_right fun hu => ?_)
      rw [mem_unwritten] at hu ⊢
      exact hu.imp_right fun ⟨_, hu⟩ => nomatch hu
    have stay (j : Ident) (hj : Accounted ls [] st j) (hne : j = i → i ∈ st.queue ∨ i ∈ idents ls) :
        Accounted ls [] { st with writing := none, emptying := false } j := by
      refine hj.mono .inl (fun hp => absurd hp List.not_mem_nil) fun hu => ?_
      obtain hu | ⟨u, hu⟩ := mem_unwritten.mp hu
      · exact .inr (.inr (mem_unwritten.mpr (.inl hu)))
      · rw [hw] at hu
        cases hu
        exact (hne rfl).elim (fun hq => .inr (.inr (mem_unwritten.mpr (.inl hq)))) .inl
    refine ⟨h.records, h.queue, fun j hj => stay j (h.stored j hj) fun hji => ?_, fun m hm => stay _ ?_ fun hmi => ?_,
      fun _ _ => nofun, h.quota.mono fun j hj => hj.imp_right (less j)⟩
    · subst hji
      by_contra hc
      obtain ⟨hq, hl⟩ := not_or.mp hc
      exact h.absent j t hw hq hl (by simp) hj
    · refine h.marked m ?_
      have hm' : m ∈ if st.queue.contains i then st.marks else st.marks.filter fun m => !(markIdent m = i) := hm
      split at hm'
      · exact hm'
      · exact List.mem_of_mem_filter hm'
    · have hm' : m ∈ if st.queue.contains i then st.marks else st.marks.filter fun m => !(markIdent m = i) := hm
      split at hm'
      · rename_i hq
        exact .inl (by simpa using hq)
      · simp [hmi] at hm'
  · exact h

/-! ## A change of the list -/

/-- A list, its store, and no change half taken. -/
structure Bounded (ls : List Lock) (st : Store) : Prop where
  nodup : (idents ls).Nodup
  follows : Follows ls [] st

/-- The identities of a changed list: those that leave it are among the changes, and what is new fits the quota. -/
theorem Bounded.change {new : List Lock} {ms : List Mark} (h : Bounded ls st) (hn : (idents new).Nodup)
    (hleave : ∀ i ∈ idents ls, i ∈ idents new ∨ i ∈ ms.map markIdent)
    (hquota : AtMost consoleMax fun i => isConsoleIdent i = true ∧ Accounted new (ms.map markIdent) st i) :
    Bounded new (takeChanges new ms st) := by
  have same (i : Ident) (hi : Accounted ls [] st i) : Accounted new (ms.map markIdent) st i :=
    hi.mono (fun hl => (hleave i hl).imp_right .inl) (fun hp => absurd hp List.not_mem_nil) fun hu => .inr (.inr hu)
  refine ⟨hn, Follows.takeChanges ms ⟨h.follows.records, h.follows.queue, fun i hi => same i (h.follows.stored i hi),
    fun m hm => same _ (h.follows.marked m hm), fun i t hw hq hl hp => ?_, hquota⟩⟩
  exact h.follows.absent i t hw hq (fun hi => (hleave i hi).elim hl hp) (by simp)

/-- A change that brings no new console identity fits the quota. -/
theorem Bounded.change_within {new : List Lock} {ms : List Mark} (h : Bounded ls st) (hn : (idents new).Nodup)
    (hleave : ∀ i ∈ idents ls, i ∈ idents new ∨ i ∈ ms.map markIdent)
    (hcome : ∀ i, isConsoleIdent i = true → i ∈ idents new ∨ i ∈ ms.map markIdent → i ∈ idents ls) :
    Bounded new (takeChanges new ms st) := by
  refine h.change hn hleave (h.follows.quota.mono fun i ⟨hi, ha⟩ => ⟨hi, ?_⟩)
  exact ha.mono (fun hl => .inl (hcome i hi (.inl hl))) (fun hp => .inl (hcome i hi (.inr hp))) fun hu => .inr (.inr hu)

variable {s t : State}

/-- The list and the store of a live station. -/
def LocksBounded (s : State) : Prop := Bounded s.env.list s.store

theorem LocksBounded.changeList {new : List Lock} {ms : List Mark} (h : LocksBounded s)
    (hc : Bounded s.env.list s.store → Bounded new (Machine.takeChanges new ms s.store)) :
    LocksBounded (changeList new ms s) := by
  unfold Machine.changeList
  split
  · exact h
  · exact hc h

theorem isConsoleIdent_identOf (k : LockKind) (o : Origin) : isConsoleIdent (identOf k o) = isConsoleOrigin o := by
  cases o <;> rfl

/-- A key and the system own their records beside the quota. -/
theorem LocksBounded.setOwned (k : LockKind) {o : Origin} (ho : isConsoleOrigin o = false) (h : LocksBounded s) :
    LocksBounded (setOwned k o s) := by
  refine h.changeList fun hk => hk.change_within (nodup_idents_putOwned k o hk.nodup) (fun i hi => ?_) fun i hc hi => ?_
  · by_cases hio : i = identOf k o
    · exact .inr (by simp [markIdent, hio])
    · exact .inl ((mem_idents_putOwned hio _).mpr hi)
  · have hio : ¬i = identOf k o := fun he => by
      rw [he, isConsoleIdent_identOf, ho] at hc
      exact absurd hc (by decide)
    obtain hi | hi := hi
    · exact (mem_idents_putOwned hio _).mp hi
    · exact absurd (by simpa [markIdent] using hi) hio

theorem LocksBounded.removeIdent (i : Ident) (h : LocksBounded s) : LocksBounded (removeIdent i s) := by
  unfold Machine.removeIdent
  split
  · exact h
  rename_i l hl
  obtain ⟨hmem, rfl⟩ := findIdent_some hl
  refine h.changeList fun hk => hk.change_within (nodup_idents_filter _ hk.nodup) (fun j hj => ?_) fun j _ hj => ?_
  · by_cases hji : j = lockIdent l
    · exact .inr (by simp [hji, markOf, markIdent, lockIdent])
    · exact .inl ((mem_idents_dropIdent hji _).mpr hj)
  · obtain hj | hj := hj
    · exact idents_filter_subset _ hj
    · rw [show j = lockIdent l by simpa [markOf, markIdent, lockIdent] using hj]
      exact mem_idents_of_mem hmem

theorem LocksBounded.lockOrder (k : LockKind) (c : Nat) (h : LocksBounded s) : LocksBounded (lockOrder k c s).1 := by
  unfold Machine.lockOrder
  simp only []
  split
  · rename_i l hl
    obtain ⟨hmem, hi⟩ := findIdent_some hl
    split
    · refine h.changeList fun hk => hk.change_within (by rw [idents_settleIdent]; exact hk.nodup) (fun j hj => ?_)
        fun j _ hj => ?_
      · rw [idents_settleIdent]
        exact .inl hj
      · rw [idents_settleIdent] at hj
        refine hj.elim id fun hj => ?_
        rw [show j = lockIdent l by simpa [markOf, markIdent, lockIdent] using hj]
        exact mem_idents_of_mem hmem
    · exact h
  · rename_i hnone
    split
    · exact h
    rename_i hroom
    split
    · exact h
    refine h.changeList fun hk => ?_
    have hnew : idents (s.env.list ++ [newLock k (.console c)]) = idents s.env.list ++ [.console k c] := by
      rw [idents_append]; rfl
    refine hk.change (nodup_idents_append hk.nodup (findIdent_none.mp hnone)) (fun j hj => .inl ?_) ?_
    · rw [hnew]
      exact List.mem_append_left _ hj
    · refine atMost_of_list (.console k c :: counted s.env.list s.store) ?_ fun j ⟨hc, ha⟩ => ?_
      · rw [List.length_cons, ← consoleCount_eq]
        omega
      · rw [List.mem_cons, mem_counted]
        obtain hj | hj | hj := ha
        · rw [hnew, List.mem_append, List.mem_singleton] at hj
          exact hj.symm.imp_right fun hj => ⟨hc, .inl hj⟩
        · exact .inl (by simpa [markIdent, identOf] using hj)
        · exact .inr ⟨hc, .inr (.inr hj)⟩

theorem mem_of_mem_unlockTargets {k : LockKind} {c : Nat} {l : Lock} (h : l ∈ unlockTargets k c ls) : l ∈ ls := by
  rw [unlockTargets, List.mem_append, Option.mem_toList, Option.mem_toList] at h
  exact h.elim List.mem_of_find?_eq_some List.mem_of_find?_eq_some

theorem LocksBounded.unlockOrder (k : LockKind) (c : Nat) (h : LocksBounded s) :
    LocksBounded (unlockOrder k c s).1 := by
  unfold Machine.unlockOrder
  simp only []
  split
  · exact h
  split
  · exact h
  have hmarks : ((unlockTargets k c s.env.list).map markOf).map markIdent = idents (unlockTargets k c s.env.list) :=
    List.map_map
  refine h.changeList fun hk => hk.change_within (nodup_idents_filter _ hk.nodup) (fun j hj => ?_) fun j _ hj => ?_
  · rw [hmarks]
    obtain ⟨l, hl, rfl⟩ := mem_idents.mp hj
    by_cases ht : l ∈ unlockTargets k c s.env.list
    · exact .inr (mem_idents_of_mem ht)
    · exact .inl (mem_idents_of_mem (List.mem_filter.mpr ⟨hl, by simpa using ht⟩))
  · rw [hmarks] at hj
    obtain hj | hj := hj
    · exact idents_filter_subset _ hj
    · obtain ⟨l, hl, rfl⟩ := mem_idents.mp hj
      exact mem_idents_of_mem (mem_of_mem_unlockTargets hl)

theorem LocksBounded.releaseOrder (h : LocksBounded s) : LocksBounded (releaseOrder s).1 := by
  unfold Machine.releaseOrder
  split
  · exact h
  split
  · exact h
  · exact h.removeIdent _

/-! ## Every row -/

/-- The bounds speak of the list and the store's lists. -/
theorem LocksBounded.congr (h : LocksBounded s) (hl : t.env.list = s.env.list) (hs : StoreSame s.store t.store) :
    LocksBounded t := by
  obtain ⟨hr, hm, hq, hw⟩ := hs
  have hu : unwritten t.store = unwritten s.store := by rw [unwritten, unwritten, hq, hw]
  obtain ⟨hn, f⟩ := h
  unfold LocksBounded
  rw [hl]
  refine ⟨hn, ?_⟩
  have same (i : Ident) : Accounted s.env.list [] t.store i = Accounted s.env.list [] s.store i := by
    rw [Accounted, Accounted, hu]
  refine ⟨by rw [hr]; exact f.records, by rw [hq]; exact f.queue, fun i hi => ?_, fun m hm' => ?_, fun i n => ?_, ?_⟩
  · rw [same]; exact f.stored i (hr ▸ hi)
  · rw [same]; exact f.marked m (hm ▸ hm')
  · rw [hw, hq, hr]; exact f.absent i n
  · simp only [same]; exact f.quota

theorem LocksBounded.ofWrites {ps : List Part} (hl : ¬Part.list ∈ ps) (hs : ¬Part.store ∈ ps) (hw : Writes ps s t)
    (h : LocksBounded s) :
    LocksBounded t :=
  h.congr (hw.same .list hl) (hw.same .store hs)

/-- An order keeps the list and the store as its owner does. -/
theorem LocksBounded.takeOrder {α : Type} (o : Order) (parse : List Byte → Option α) {act : α → State → State × Code}
    (hact : ∀ a s, LocksBounded s → LocksBounded (act a s).1) (h : LocksBounded s) :
    LocksBounded (takeOrder o parse act s) := by
  have heard : LocksBounded (hearOrder o s) := h.ofWrites (ps := []) (by decide) (by decide) (hearOrder_writes o s)
  have result (c : Code) (s : State) (h : LocksBounded s) : LocksBounded (giveResult o c s) :=
    h.ofWrites (by decide) (by decide) (giveResult_writes o c s)
  unfold Machine.takeOrder
  split
  · split
    · exact result _ _ heard
    · exact result _ _ (hact _ _ heard)
  · exact heard

theorem LocksBounded.settleKey (n : Fin 4) (k : LockKind) (b : Bool) (h : LocksBounded s) :
    LocksBounded (settleKey n k b s) := by
  cases b
  · exact h.removeIdent _
  · exact h.setOwned k rfl

theorem LocksBounded.takeKey (n : Fin 4) (h : LocksBounded s) : LocksBounded (takeKey n s) := by
  unfold Machine.takeKey
  split
  · exact h
  simp only []
  split
  · exact LocksBounded.settleKey n _ _ (s := withInputs (keyNoted n s.env.inputs) s) h
  · exact h

theorem lockIdent_ageLock (dt : Nat) (l : Lock) : lockIdent (ageLock dt l) = lockIdent l := rfl

/-- Ageing keeps the identities, and a write in progress its own. -/
theorem Bounded.advance (dt : Nat) (h : Bounded ls st) : Bounded (ls.map (ageLock dt)) (advanceStore dt st) := by
  obtain ⟨hn, f⟩ := h
  have hl : idents (ls.map (ageLock dt)) = idents ls := idents_map (lockIdent_ageLock dt) ls
  have hr : idents (advanceStore dt st).records = idents st.records := idents_map (lockIdent_ageLock dt) _
  have hw (i : Ident) : (∃ t, (advanceStore dt st).writing = some (i, t)) ↔ ∃ t, st.writing = some (i, t) := by
    simp [advanceStore]
  have same (i : Ident) : Accounted (ls.map (ageLock dt)) [] (advanceStore dt st) i ↔ Accounted ls [] st i := by
    rw [Accounted, Accounted, mem_unwritten, mem_unwritten, hl, hw]
    rfl
  refine ⟨by rw [hl]; exact hn, by rw [hr]; exact f.records, f.queue, fun i hi => (same i).mpr (f.stored i (hr ▸ hi)),
    fun m hm => (same _).mpr (f.marked m hm), fun i t ht => ?_, f.quota.mono fun i hi => hi.imp_right (same i).mp⟩
  obtain ⟨u, hu⟩ := (hw i).mp ⟨t, ht⟩
  rw [hl, hr]
  exact f.absent i u hu

theorem LocksBounded.advance (dt : Nat) (h : LocksBounded s) : LocksBounded (advance dt s) := Bounded.advance dt h

theorem readEncoders_list (z : Samples) (s : State) :
    (readEncoders z s).env.list = s.env.list ∧ (readEncoders z s).store = s.store := by
  unfold readEncoders
  split
  · simp only []
    split <;> exact ⟨rfl, rfl⟩
  · exact ⟨rfl, rfl⟩

theorem LocksBounded.controlInterval (z : Samples) (h : LocksBounded s) : LocksBounded (controlInterval z s) := by
  obtain ⟨hl, hs⟩ := readEncoders_list z (sampleAll z (Machine.advance (toIntervalEnd s.env.now) s))
  refine (h.advance (toIntervalEnd s.env.now)).congr hl ?_
  show StoreSame _ (readEncoders z (sampleAll z (Machine.advance (toIntervalEnd s.env.now) s))).store
  rw [hs]
  exact ⟨rfl, rfl, rfl, rfl⟩

theorem LocksBounded.failSection (x : SectionId) (h : LocksBounded s) : LocksBounded (failSection x s) :=
  LocksBounded.setOwned .all rfl (s := { s with core := raiseCond (.sectionFailed x) s.core }) h

theorem LocksBounded.restoreCold (h : LocksBounded s) : LocksBounded (restoreCold s) := by
  unfold Machine.restoreCold
  split
  · exact h.setOwned .point rfl
  · exact h

theorem LocksBounded.loadOf (bytes : List Byte) (x : SectionId) (h : LocksBounded s) :
    LocksBounded (loadOf bytes x s) := by
  cases x with
  | a =>
    show LocksBounded (loadA bytes s)
    unfold loadA
    split
    · exact h
    · exact LocksBounded.failSection .a (s := { withSetup { s.env.setup with statusA := .failed } s with
        core := silenceIdentity s.core }) h
  | b =>
    show LocksBounded (loadB bytes s)
    unfold loadB
    split
    · exact h
    · exact LocksBounded.failSection .b (s := withSetup { s.env.setup with statusB := .failed } s) h
  | c =>
    show LocksBounded (loadC bytes s)
    unfold loadC
    split
    · exact h
    · exact LocksBounded.failSection .c (s := withSetup { s.env.setup with statusC := .failed } s) h
  | d =>
    show LocksBounded (loadD bytes s)
    unfold loadD
    split
    · exact LocksBounded.restoreCold (h.congr rfl ⟨rfl, rfl, rfl, rfl⟩)
    · have hf := LocksBounded.failSection .d (s := withSetup { s.env.setup with statusD := .failed } s) h
      exact hf.ofWrites (ps := []) (by decide) (by decide) (.core _ _)

theorem LocksBounded.loadSection (bytes : List Byte) (h : LocksBounded s) : LocksBounded (loadSection bytes s) := by
  cases hx : s.env.setup.loading with
  | none => rw [loadSection_none hx]; exact h
  | some x =>
    rw [loadSection_some hx]
    exact LocksBounded.loadOf bytes x (s := withSetup { s.env.setup with loading := nextSection x } s) h

theorem LocksBounded.workOf {i : Instr} (hi : Plain i) (h : LocksBounded s) : LocksBounded (workOf i s) := by
  have frame (hl : ¬Part.list ∈ partsOf i) (hs : ¬Part.store ∈ partsOf i) : LocksBounded (Machine.workOf i s) :=
    h.ofWrites hl hs (workOf_writes hi s)
  cases i with
  | lock o => exact h.takeOrder o _ fun k s hs => hs.lockOrder k _
  | unlock o => exact h.takeOrder o _ fun k s hs => hs.unlockOrder k _
  | release o => exact h.takeOrder o _ fun _ s hs => hs.releaseOrder
  | keyTaken n => exact h.takeKey n
  | recordWriteEnd => exact ⟨h.nodup, h.follows.endWrite⟩
  | sectionLoaded bytes => exact h.loadSection bytes
  | controlInterval z => exact h.controlInterval z
  | _ => exact frame (by simp [partsOf]) (by simp [partsOf])

/-! ## Reset and start (R81, R183, R184) -/

theorem origin_of_identOf {k k' : LockKind} {o o' : Origin} (h : identOf k o = identOf k' o') : o = o' := by
  cases o <;> cases o' <;> simp_all [identOf]

/-- A mark's identity joins the list unless a record has it (R81). -/
theorem idents_rebuildMark (ls : List Lock) (m : Mark) :
    idents (rebuildMark ls m) = if markIdent m ∈ idents ls then idents ls else idents ls ++ [markIdent m] := by
  have hany : (ls.any fun l => decide (lockIdent l = markIdent m)) = true ↔ markIdent m ∈ idents ls := by
    simp [mem_idents]
  unfold rebuildMark
  by_cases hm : markIdent m ∈ idents ls
  · rw [if_pos (hany.mpr hm), if_pos hm]
    refine idents_map (fun l => ?_) ls
    split
    · rename_i hl
      have ho : l.origin = m.origin := origin_of_identOf hl
      rw [hl, markIdent, ← ho]
      rfl
    · rfl
  · rw [if_neg fun h => hm (hany.mp h), if_neg hm, idents_append]
    rfl

theorem mem_idents_rebuildMark {i : Ident} {m : Mark} :
    i ∈ idents (rebuildMark ls m) ↔ i ∈ idents ls ∨ i = markIdent m := by
  rw [idents_rebuildMark]
  split
  · rename_i hm
    exact ⟨.inl, fun h => h.elim id fun he => he ▸ hm⟩
  · simp

theorem nodup_idents_rebuildMark (m : Mark) (h : (idents ls).Nodup) : (idents (rebuildMark ls m)).Nodup := by
  rw [idents_rebuildMark]
  split
  · exact h
  · rename_i hm
    rw [List.nodup_append]
    exact ⟨h, List.nodup_singleton _, fun a ha b hb hab => hm (List.mem_singleton.mp hb ▸ hab ▸ ha)⟩

theorem mem_idents_rebuild {i : Ident} (ms : List Mark) : ∀ {ls : List Lock},
    i ∈ idents (ms.foldl rebuildMark ls) ↔ i ∈ idents ls ∨ i ∈ ms.map markIdent := by
  induction ms with
  | nil => simp
  | cons m ms ih =>
    intro ls
    rw [List.foldl_cons, ih, mem_idents_rebuildMark, List.map_cons, List.mem_cons]
    tauto

theorem nodup_idents_rebuild (ms : List Mark) : ∀ {ls : List Lock}, (idents ls).Nodup →
    (idents (ms.foldl rebuildMark ls)).Nodup := by
  induction ms with
  | nil => exact fun h => h
  | cons m ms ih => exact fun h => ih (nodup_idents_rebuildMark m h)

/-- What a reset finds rebuilds to a list within the bounds: it holds only what was accounted for. -/
theorem Bounded.ready (h : Bounded ls st) :
    (idents (rebuildList st)).Nodup ∧ countOrigin isConsoleOrigin (rebuildList st) ≤ consoleMax := by
  obtain ⟨-, f⟩ := h
  have hn := nodup_idents_rebuild st.marks f.records
  refine ⟨hn, ?_⟩
  rw [countOrigin_console]
  refine f.quota _ (hn.filter _) fun i hi => ?_
  obtain ⟨hi, hc⟩ := List.mem_filter.mp hi
  refine ⟨hc, ?_⟩
  obtain hi | hi := (mem_idents_rebuild st.marks).mp hi
  · exact f.stored i hi
  · obtain ⟨m, hm, rfl⟩ := List.mem_map.mp hi
    exact f.marked m hm

/-- A warm start writes its UNCERTAIN records: the store follows the rebuilt list. -/
theorem bounded_warm (hr : (idents st.records).Nodup) (hn : (idents (rebuildList st)).Nodup)
    (hc : countOrigin isConsoleOrigin (rebuildList st) ≤ consoleMax) :
    Bounded (rebuildList st) (storeAfterRebuild (rebuildList st) st) := by
  refine ⟨hn, Follows.takeChanges _ ⟨hr, List.nodup_nil, fun i hi => .inl ((mem_idents_rebuild _).mpr (.inl hi)),
    fun _ hm => absurd hm List.not_mem_nil, fun _ _ => nofun, ?_⟩⟩
  rw [countOrigin_console] at hc
  refine atMost_of_list _ hc fun i ⟨hi, ha⟩ => List.mem_filter.mpr ⟨?_, hi⟩
  obtain ha | ha | ha := ha
  · exact ha
  · obtain ⟨m, hm, rfl⟩ := List.mem_map.mp ha
    obtain ⟨l, hl, rfl⟩ := List.mem_map.mp hm
    exact mem_idents_of_mem (List.mem_of_mem_filter hl)
  · exact absurd ha List.not_mem_nil

theorem bounded_empty : Bounded [] emptyStore :=
  ⟨List.nodup_nil, List.nodup_nil, List.nodup_nil, fun _ hi => absurd hi List.not_mem_nil,
    fun _ hm => absurd hm List.not_mem_nil, fun _ _ => nofun,
    atMost_of_list [] (Nat.zero_le _) fun _ ⟨_, ha⟩ => by
      obtain ha | ha | ha := ha <;> exact absurd ha List.not_mem_nil⟩

theorem locksBounded_powerOn (s : State) : LocksBounded (powerOn s) :=
  LocksBounded.setOwned .point rfl (s := emptied s) bounded_empty

theorem locksBounded_startInstant (hr : (idents s.store.records).Nodup) (h : StoreReady s) :
    LocksBounded (startInstant s) := by
  obtain ⟨hn, hc⟩ := h
  unfold startInstant
  split
  · exact bounded_warm hr hn hc
  · exact locksBounded_powerOn s

/-! ## The bounds as the statement names them -/

/-- The lists of a live station are bounded just as R69, R74 and R79 say. -/
theorem locksBounded_iff (s : State) :
    LocksBounded s ↔ (idents s.env.list).Nodup ∧ (idents s.store.records).Nodup ∧ StoreFollows s := by
  constructor
  · rintro ⟨hn, f⟩
    refine ⟨hn, f.records, f.queue, fun r hr => ?_, fun m hm => ?_, fun w hw hq hl r hr he => ?_,
      (quota_iff hn f.queue _).mp f.quota⟩
    · exact (f.stored _ (mem_idents_of_mem hr)).imp_right fun h => h.elim (fun hp => absurd hp List.not_mem_nil) id
    · exact (f.marked m hm).imp_right fun h => h.elim (fun hp => absurd hp List.not_mem_nil) id
    · exact f.absent w.1 w.2 hw hq hl List.not_mem_nil (he ▸ mem_idents_of_mem hr)
  · rintro ⟨hn, hr, hq, hstored, hmarked, habsent, hquota⟩
    refine ⟨hn, hr, hq, fun i hi => ?_, fun m hm => ?_, fun i t hw hiq hl _ hi => ?_, (quota_iff hn hq _).mpr hquota⟩
    · obtain ⟨r, hr, rfl⟩ := mem_idents.mp hi
      exact (hstored r hr).imp_right .inr
    · exact (hmarked m hm).imp_right .inr
    · obtain ⟨r, hr, he⟩ := mem_idents.mp hi
      exact habsent (i, t) hw hiq hl r hr he

/-- Different identities within the quota are at most 12: five of keys and the system, seven of consoles. -/
theorem Bounded.listRight (h : LocksBounded s) : ListRight s := by
  obtain ⟨hn, f⟩ := h
  have hconsole : ((idents s.env.list).filter isConsoleIdent).length ≤ consoleMax :=
    f.quota _ (hn.filter _) fun i hi => ⟨(List.mem_filter.mp hi).2, .inl (List.mem_filter.mp hi).1⟩
  have hplain : ((idents s.env.list).filter fun i => !isConsoleIdent i).length ≤ 5 :=
    atMost_plain _ (hn.filter _) fun i hi => by simpa using (List.mem_filter.mp hi).2
  have hsum := List.length_eq_length_filter_add (l := idents s.env.list) isConsoleIdent
  refine ⟨hn, ?_, by rwa [countOrigin_console]⟩
  rw [idents, List.length_map] at hsum
  exact hsum.trans_le (Nat.add_le_add hconsole hplain)

/-- What O7 keeps, in reset and out of it. -/
def LocksRight (s : State) : Prop :=
  (s.inReset = false → LocksBounded s)
    ∧ (s.inReset = true → ListRight s ∧ (idents s.store.records).Nodup ∧ StoreReady s)

theorem locksRight_iff (s : State) : LocksRight s ↔ ListRight s ∧ StoreRight s := by
  cases hr : s.inReset with
  | false =>
    simp only [LocksRight, StoreRight, hr, forall_const, Bool.false_eq_true, false_implies, and_true]
    refine ⟨fun h => ⟨Bounded.listRight h, ?_⟩, fun ⟨hl, hrec, hf⟩ => (locksBounded_iff s).mpr ⟨hl.1, hrec, hf⟩⟩
    obtain ⟨-, hrec, hf⟩ := (locksBounded_iff s).mp h
    exact ⟨hrec, hf⟩
  | true =>
    simp only [LocksRight, StoreRight, hr, forall_const, Bool.true_eq_false, false_implies, true_and]
    rfl

theorem locksRight_live (hr : s.inReset = false) (h : LocksBounded s) : LocksRight s :=
  ⟨fun _ => h, fun ht => absurd (hr.symm.trans ht) (by decide)⟩

/-- Entering reset stops the writes, or loses the store; either way the bounds hold of what a start would rebuild. -/
theorem LocksRight.enterReset {st' : Store} (h : LocksRight s)
    (hst : (st'.records = s.store.records ∧ st'.marks = s.store.marks) ∨ st' = lostStore) :
    LocksRight (enterReset st' s) := by
  have hboth : ListRight s ∧ (idents s.store.records).Nodup ∧ StoreReady s := by
    cases hr : s.inReset with
    | false =>
      have hb := h.1 hr
      exact ⟨Bounded.listRight hb, hb.follows.records, Bounded.ready hb⟩
    | true => exact h.2 hr
  obtain ⟨hl, hrec, hready⟩ := hboth
  refine ⟨nofun, fun _ => ⟨hl, ?_⟩⟩
  obtain ⟨hrecords, hmarks⟩ | rfl := hst
  · have hre : rebuildList st' = rebuildList s.store := by rw [rebuildList, rebuildList, hrecords, hmarks]
    refine ⟨?_, ?_⟩
    · show (idents st'.records).Nodup
      rw [hrecords]; exact hrec
    · show ((rebuildList st').map lockIdent).Nodup ∧ countOrigin isConsoleOrigin (rebuildList st') ≤ consoleMax
      rw [hre]; exact hready
  · exact ⟨List.nodup_nil, List.nodup_nil, Nat.zero_le _⟩

theorem exec_locksRight {i : Instr} (h : LocksRight s) (ht : exec i s = .next t) : LocksRight t := by
  obtain ⟨hplain, -, rfl⟩ | ⟨ms, cuts, ce, -, rfl⟩ | ⟨ms, lost, cuts, ce, -, rfl⟩ | ⟨-, rfl⟩ := exec_cases ht
  · cases hr : s.inReset with
    | true => rwa [work_reset _ _ hr]
    | false =>
      refine locksRight_live ((work_live_state hplain s).trans hr) ?_
      rw [work_live _ _ hr]
      exact ((h.1 hr).workOf hplain).ofWrites (by decide) (by decide) (Writes.settle _ _)
  · unfold assertReset
    split
    · exact h.enterReset (.inl ⟨rfl, rfl⟩)
    · exact h
  · refine h.enterReset ?_
    split
    · exact .inr rfl
    · exact .inl ⟨rfl, rfl⟩
  · split
    · rename_i hr
      obtain ⟨-, hrec, hready⟩ := h.2 hr
      exact locksRight_live (startInstant_inReset s) (locksBounded_startInstant hrec hready)
    · exact h

theorem idle_locksRight (h : LocksRight s) : LocksRight (idle s) := by
  unfold idle
  split
  · exact h
  rename_i hr
  have hr : s.inReset = false := Bool.eq_false_iff.mpr hr
  split
  · exact h
  split
  · exact locksRight_live hr (((h.1 hr).advance 1).ofWrites (by decide) (by decide) (Writes.settle _ _))
  · exact h

/-- Settles O7: the list, the writes not yet ended and the marks account for one another at every step. -/
theorem everyStepKeepsLockIdentities : Obligations.EveryStepKeepsLockIdentities := by
  intro s t hl hs ht
  rw [← locksRight_iff]
  have h := (locksRight_iff s).mpr ⟨hl, hs⟩
  cases hp : s.pending with
  | nil =>
    rw [step_idle hp] at ht
    cases ht
    exact idle_locksRight h
  | cons c rest =>
    rw [step_command hp] at ht
    exact exec_locksRight (s := { s with pending := rest }) h ht

end Sys2Proof.Machine
end

section
/-! PROOFS. What every row leaves alone of the acting blocks: the causes, the heat mode, the readings, the proof, the masks, the noise and the timers by their own writes; the motion, the stow state, the claim and the conditions row by row (95). -/

namespace Sys2Proof.Machine

/-! ## Aspects that few writes touch -/

/-- An aspect of the blocks that only a row's own writes touch. -/
inductive Aspect where
  | causes
  | mode
  | sensors
  | proof
  | masks
  | noise
  | timers

/-- An aspect of the blocks is as it was. -/
def sameAspect (k0 k : Core) : Aspect → Prop
  | .causes => k.stow.causes = k0.stow.causes
  | .mode => k.heat.mode = k0.heat.mode
  | .sensors => k.heat.ambient = k0.heat.ambient
      ∧ ∀ z : Fin 4, (fourGet k.heat.zones z).reading = (fourGet k0.heat.zones z).reading
  | .proof => k.cond.proof = k0.cond.proof
  | .masks => k.cond.masks = k0.cond.masks ∧ k.cond.alarmMask = k0.cond.alarmMask
  | .noise => k.line.noise = k0.line.noise
  | .timers => lineTimers k.line = lineTimers k0.line

/-- The writes that touch an aspect. -/
def touches : Aspect → Write → Bool
  | .causes, .stow | .mode, .mode | .sensors, .heat | .proof, .proof | .masks, .masks => true
  | .noise, .line | .noise, .timedLine | .timers, .line | .timers, .quietLine => true
  | _, _ => false

/-- The rows that the statement names for an aspect. -/
def changesAspect : Aspect → Instr → Bool
  | .causes => changesCauses
  | .mode => changesHeatMode
  | .sensors => readsSensors
  | .proof => changesProof
  | .masks => changesMasks
  | .noise => changesNoise
  | .timers => changesLineTimers

theorem sameAspect_refl (k : Core) (a : Aspect) : sameAspect k k a := by
  cases a with
  | sensors => exact ⟨rfl, fun _ => rfl⟩
  | masks => exact ⟨rfl, rfl⟩
  | _ => rfl

/-- The blocks' own writes leave every aspect as it was. -/
theorem closed_sameAspect (k0 : Core) (a : Aspect) : Closed fun _ k => sameAspect k0 k a where
  fee _ h := by cases a <;> exact h
  line hn ht h := by
    cases a with
    | noise => exact hn.trans h
    | timers => exact ht.trans h
    | _ => exact h
  cond _ _ h := by cases a <;> exact h
  notices _ h := by cases a <;> exact h
  stow hu h := by
    cases a with
    | causes => exact hu.trans h
    | _ => exact h
  heat hs h := by
    cases a with
    | mode => exact hs.mode.trans h
    | sensors =>
      obtain ⟨ha, hz⟩ := h
      exact ⟨hs.ambient.trans ha, fun z => (hs.zones z).trans (hz z)⟩
    | _ => exact h
  flags _ _ _ h := by cases a <;> exact h
  axis i _ _ h := by cases i <;> cases a <;> exact h
  rebase _ h := h

/-- A write that does not touch an aspect leaves it as it was. -/
theorem allows_sameAspect (k0 : Core) {a : Aspect} {w : Write} (h : touches a w = false) :
    Allows (fun _ k => sameAspect k0 k a) w := by
  cases a with
  | causes => cases w <;> simp [touches, Allows, sameAspect] at h ⊢
  | mode => cases w <;> simp_all [touches, Allows, sameAspect]
  | sensors => cases w <;> simp_all [touches, Allows, sameAspect]
  | proof => cases w <;> simp [touches, Allows, sameAspect] at h ⊢
  | masks => cases w <;> simp_all [touches, Allows, sameAspect]
  | noise => cases w <;> simp_all [touches, Allows, sameAspect]
  | timers => cases w <;> simp_all [touches, Allows, sameAspect]

/-- A row not named for an aspect makes no write that touches it. -/
theorem touches_writesOf {a : Aspect} {i : Instr} (h : changesAspect a i = false) :
    ∀ w ∈ writesOf i, touches a w = false := by
  cases a <;> cases i <;> simp_all [changesAspect, changesCauses, changesHeatMode, readsSensors, changesProof,
    changesMasks, changesNoise, changesLineTimers, changesPeers, orderCarried, touchesAll, writesOf, touches]

theorem lineInReset_line (l : LinePort) :
    (lineInReset l).noise = l.noise ∧ lineTimers (lineInReset l) = lineTimers l := ⟨rfl, rfl⟩

variable {s t : State}

/-- The rows of the reset: the blocks stand but for the frame in flight, or start afresh. -/
theorem exec_resetRow {i : Instr} (h : exec i s = .next t) :
    (Plain (rowOf i) ∧ isResetRow (rowOf i) = false ∧ t = work (workOf (rowOf i)) s)
      ∨ (t.core = { s.core with line := lineInReset s.core.line } ∧ isResetRow (rowOf i) = true) ∨ t.core = s.core
      ∨ rowOf i = .startInstant := by
  obtain h | ⟨ms, cuts, ce, hrow, rfl⟩ | ⟨ms, lost, cuts, ce, hrow, rfl⟩ | ⟨hrow, -⟩ := exec_cases h
  · exact .inl h
  · unfold assertReset
    split
    · exact .inr (.inl ⟨rfl, by rw [hrow]; rfl⟩)
    · exact .inr (.inr (.inl rfl))
  · exact .inr (.inl ⟨rfl, by rw [hrow]; rfl⟩)
  · exact .inr (.inr (.inr hrow))

/-- A row changes no aspect for which it is not named. -/
theorem exec_sameAspect {i : Instr} (ht : exec i s = .next t) {a : Aspect} (h : changesAspect a (rowOf i) = false) :
    sameAspect s.core t.core a := by
  have hP := closed_sameAspect s.core a
  have h0 := sameAspect_refl s.core a
  obtain ⟨hplain, -, rfl⟩ | ⟨he, -⟩ | he | hrow := exec_resetRow ht
  · exact hP.work hplain (fun w hw => allows_sameAspect _ (touches_writesOf h w hw)) h0
  · rw [he]
    exact hP.line (b := true) (lineInReset_line _).1 (lineInReset_line _).2 h0
  · rw [he]
    exact h0
  · rw [hrow] at h
    cases a <;> simp [changesAspect, changesCauses, changesPeers, changesHeatMode, readsSensors, changesProof,
      changesMasks, changesNoise, changesLineTimers, touchesAll, orderCarried] at h

/-! ## Rows that leave the motion, the stow state, the claim, the conditions -/

/-- Both axes stand but for their idle-brake timers and last answers. -/
def Unmoved (k0 k : Core) : Prop := ∀ i, motion (getAxis k i) = motion (getAxis k0 i)

variable {k0 k k' : Core} {e : Env}

theorem Unmoved.ofAxes (h : Unmoved k0 k) (ha : k'.axes = k.axes) : Unmoved k0 k' := fun i => by
  rw [← h i]; cases i <;> simp only [getAxis, ha]

theorem Unmoved.same (h : Unmoved k0 k) (hs : Same true k k') : Unmoved k0 k' := fun i => (hs.axis i).trans (h i)
theorem Unmoved.raiseCond (c : Cond) (h : Unmoved k0 k) : Unmoved k0 (raiseCond c k) := fun i =>
  (raiseCond_motion c k i).trans (h i)
theorem Unmoved.endCond (c : Cond) (h : Unmoved k0 k) : Unmoved k0 (endCond c k) := h.ofAxes (by simp)
theorem Unmoved.evaluateHeat (h : Unmoved k0 k) : Unmoved k0 (evaluateHeat e k) := h.same (Same.refl k).evaluateHeat
theorem Unmoved.testAdmission (h : Unmoved k0 k) : Unmoved k0 (testAdmission e k) := h.same (Same.refl k).testAdmission

/-- The stow state and the claim stand. -/
structure Unclaimed (k0 k : Core) : Prop where
  state : k.stow.state = k0.stow.state
  claim : k.fee.claim = k0.fee.claim

theorem Unclaimed.raiseCond (c : Cond) (h : Unclaimed k0 k) : Unclaimed k0 (raiseCond c k) :=
  ⟨(raiseCond_state c k).trans h.state, by rw [raiseCond_fee]; exact h.claim⟩

theorem Unclaimed.endCond (c : Cond) (h : Unclaimed k0 k) : Unclaimed k0 (endCond c k) :=
  ⟨by rw [endCond_stow]; exact h.state, by rw [endCond_fee]; exact h.claim⟩

/-- A row's work on the blocks leaves the axes, the stow state, the claim. -/
structure Aside (k0 k : Core) : Prop where
  motion : Unmoved k0 k
  blocks : Unclaimed k0 k

theorem Aside.refl (k : Core) : Aside k k := ⟨fun _ => rfl, rfl, rfl⟩
theorem Aside.raiseCond (c : Cond) (h : Aside k0 k) :
    Aside k0 (raiseCond c k) :=
  ⟨h.motion.raiseCond c, h.blocks.raiseCond c⟩
theorem Aside.endCond (c : Cond) (h : Aside k0 k) : Aside k0 (endCond c k) := ⟨h.motion.endCond c, h.blocks.endCond c⟩
theorem Aside.ofFields (h : Aside k0 k) (ha : k'.axes = k.axes) (hs : k'.stow.state = k.stow.state)
    (hf : k'.fee.claim = k.fee.claim) : Aside k0 k' :=
  ⟨h.motion.ofAxes ha, hs.trans h.blocks.state, hf.trans h.blocks.claim⟩
theorem Aside.line (l : LinePort) (k : Core) : Aside k { k with line := l } := (Aside.refl k).ofFields rfl rfl rfl

theorem discard_aside (e : Env) (k : Core) : Aside k (discard e k) := by
  unfold discard countNoise
  split
  · simp only []
    split
    · exact (Aside.line _ k).raiseCond _
    · exact Aside.line _ k
  · exact .refl k

theorem endBreak_aside (k : Core) : Aside k (endBreak k) := by
  unfold endBreak
  split
  · split
    · exact Aside.line _ k
    · exact (Aside.line _ k).raiseCond _
  · exact .refl k

theorem hearDuplicate_aside (e : Env) (k : Core) : Aside k (hearDuplicate e k) := by
  unfold hearDuplicate
  split
  · exact (Aside.line _ k).raiseCond _
  · exact .refl k

theorem decayNoise_aside (k : Core) : Aside k (decayNoise k) := by
  unfold decayNoise
  simp only []
  split
  · exact (Aside.line _ k).endCond _
  · exact Aside.line _ k

theorem startTransmission_aside (e : Env) (slot : ResultSlot) (gap : Nat) (k : Core) :
    Aside k (startTransmission e slot gap k) := by
  unfold startTransmission
  split
  · split
    · exact Aside.line _ k
    · exact .refl k
  · exact .refl k

theorem takeDue_aside (e : Env) (k : Core) : Aside k (takeDue e k) := by
  unfold takeDue
  split
  · exact Aside.line _ k
  · exact .refl k

theorem feedbackVerdict_aside (e : Env) (k : Core) : Aside k (feedbackVerdict e k) := by
  unfold feedbackVerdict syncCond
  have ended : Aside k { k with cond := { k.cond with proof := none } } := (Aside.refl k).ofFields rfl rfl rfl
  split
  · exact .refl k
  split
  · split
    · exact ended.raiseCond _
    · exact ended.endCond _
  · exact .refl k

theorem takeFrame_aside {f : RawFrame} (hi : Plain (.discardedFrame f)) (s : State) :
    Aside s.core (takeFrame f s).core := by
  obtain hd | hs := takeFrame_plain hi s
  · rw [hd]
    exact discard_aside s.env s.core
  · rw [hs]
    exact .refl s.core

/-- The rows named for neither the stow state nor the claim, but for a completion, leave the axes, the stow state and
the claim. -/
theorem workOf_aside {i : Instr} (hi : Plain i) (h : changesStowState i = false) (hb : ¬i = .beaconComplete)
    (s : State) :
    Aside s.core (workOf i s).core := by
  cases i with
  | beaconComplete => exact absurd rfl hb
  | ownNumberBeacon => exact hearDuplicate_aside s.env s.core
  | discardedFrame f => exact takeFrame_aside hi s
  | stray => exact discard_aside s.env s.core
  | transmissionStart gap => exact startTransmission_aside s.env s.slot gap s.core
  | lostArbitration word => exact Aside.line _ s.core
  | abort => exact Aside.line _ s.core
  | breakEnd => exact endBreak_aside s.core
  | restTimerExpiry => exact Aside.line _ s.core
  | beaconIntervalDue => exact takeDue_aside s.env s.core
  | noiseDecay => exact decayNoise_aside s.core
  | onSourceSet =>
    show Aside s.core (setOnSource s.core)
    unfold setOnSource
    split
    · exact ⟨fun i => by cases i <;> rfl, rfl, rfl⟩
    · exact .refl s.core
  | releaseHoldExpiry =>
    show Aside s.core (endHold s.env s.core)
    unfold endHold
    split
    · exact (Aside.refl s.core).ofFields rfl rfl rfl
    · exact .refl s.core
  | cycleStart z =>
    show Aside s.core (cycleStart s.env z s.core)
    unfold cycleStart
    split
    · exact (Aside.refl s.core).ofFields rfl rfl rfl
    · exact .refl s.core
  | onTimeEnd z => exact (Aside.refl s.core).ofFields rfl rfl rfl
  | feedbackProofVerdict => exact feedbackVerdict_aside s.env s.core
  | anemometerPulse => exact .refl s.core
  | recordWriteEnd => exact .refl s.core
  | resetAsserted _ _ _ => exact .refl s.core
  | supplyFailure _ _ _ _ => exact .refl s.core
  | _ => simp [changesStowState, changesClaim, movesAxes, changesCauses, changesPeers, orderCarried, touchesAll] at h

theorem completeBeacon_axes (e : Env) (k : Core) : (completeBeacon e k).axes = k.axes := by
  unfold completeBeacon
  split
  · rfl
  split
  · exact endCond_axes ..
  · rfl

theorem completeBeacon_stow (e : Env) (k : Core) : (completeBeacon e k).stow = k.stow := by
  unfold completeBeacon
  split
  · rfl
  split
  · exact endCond_stow ..
  · rfl

theorem workOf_state {i : Instr} (hi : Plain i) (h : changesStowState i = false) (s : State) :
    (workOf i s).core.stow.state = s.core.stow.state := by
  by_cases hb : i = .beaconComplete
  · subst hb
    exact congrArg StowUnit.state (completeBeacon_stow s.env s.core)
  · exact (workOf_aside hi h hb s).blocks.state

theorem syncCond_fee (c : Cond) (p : Bool) (k : Core) : (syncCond c p k).fee = k.fee := by
  unfold syncCond
  split
  · exact raiseCond_fee ..
  · exact endCond_fee ..

theorem setStow_fee (n : StowState) (k : Core) : (setStow n k).fee = k.fee := by
  unfold setStow
  split
  · rfl
  · rw [syncStowFailed, syncCond_fee]
    simp only []
    split
    · rw [wakeEvent_fee, request_fee]
    · rw [request_fee]

theorem settlePinFeedback_fee (k : Core) : (settlePinFeedback e k).fee = k.fee := by
  unfold settlePinFeedback
  split
  · exact endCond_fee ..
  · rfl

theorem settlePinFeedback_axes (k : Core) : (settlePinFeedback e k).axes = k.axes := by
  unfold settlePinFeedback
  split
  · exact endCond_axes ..
  · rfl

theorem pinExpiry_fee (k : Core) : (pinExpiry e k).fee = k.fee := by
  unfold pinExpiry
  split
  · rw [pinFault, settlePinFeedback_fee, setStow_fee, raiseCond_fee]
  · rfl

theorem workOf_claim {i : Instr} (hi : Plain i) (h : changesClaim i = false) (s : State) :
    (workOf i s).core.fee.claim = s.core.fee.claim := by
  cases i with
  | pinTimeout => exact congrArg Feeder.claim (pinExpiry_fee s.core)
  | beaconComplete => simp [changesClaim] at h
  | _ => exact (workOf_aside hi h (by simp) s).blocks.claim

/-! ### Motion -/

theorem endSensorCauses_axes (k : Core) : (endSensorCauses k).axes = k.axes := by
  have h1 := foldl_keeps (fun k' : Core => k'.axes = k.axes)
    (fun k z => if (fourGet k.heat.zones z).fails = 0 then endCond (.zoneSensor z) k else k) allFour
    (fun k z hk => by split <;> simp [hk]) k rfl
  unfold endSensorCauses
  simp only []
  split
  · rw [endCond_axes]; exact h1
  · exact h1

theorem Unmoved.refl (k : Core) : Unmoved k k := fun _ => rfl

/-- The rows not named for the motion leave both axes' motion. -/
theorem workOf_unmoved {i : Instr} (hi : Plain i) (h : movesAxes i = false) (s : State) :
    Unmoved s.core (workOf i s).core := by
  have k0 := Unmoved.refl s.core
  cases i with
  | beaconComplete => exact k0.ofAxes (completeBeacon_axes s.env s.core)
  | duplicateTimerExpiry =>
    show Unmoved s.core (endDuplicate s.env s.core)
    unfold endDuplicate
    split
    · refine Unmoved.testAdmission (Unmoved.ofAxes (k := endCond .duplicate _) (Unmoved.endCond _ ?_) (request_axes ..))
      exact k0.ofAxes rfl
    · exact k0
  | settleIntervalEnd =>
    show Unmoved s.core (endSettleInterval s.env s.core)
    unfold endSettleInterval
    split
    · exact Unmoved.testAdmission (k0.ofAxes rfl)
    · exact k0
  | fillTimeEnd =>
    show Unmoved s.core (endFill s.env s.core)
    unfold endFill
    split
    · exact Unmoved.testAdmission (k0.ofAxes rfl)
    · exact k0
  | stowWaitLimit =>
    show Unmoved s.core (waitLimit s.env s.core)
    unfold waitLimit
    split
    · exact k0.testAdmission
    · exact k0
  | pollRound a =>
    show Unmoved s.core (pollRound s.env a s.core)
    unfold pollRound
    split
    · have hpolled := endSensorCauses_axes { s.core with heat := pollHeater s.env a s.core.heat }
      generalize endSensorCauses { s.core with heat := pollHeater s.env a s.core.heat } = k at hpolled
      exact (k0.ofAxes hpolled).evaluateHeat
    · exact k0
  | sensorFault x =>
    show Unmoved s.core (sensorFault s.env x s.core)
    unfold sensorFault
    split
    · exact (k0.raiseCond _).evaluateHeat
    · exact k0
  | wetChange =>
    show Unmoved s.core (takeWet s.env s.core)
    unfold takeWet
    split
    · refine Unmoved.evaluateHeat ?_
      exact k0.ofAxes rfl
    · exact k0
  | wetMemoryExpiry =>
    show Unmoved s.core (endWetMemory s.env s.core)
    unfold endWetMemory
    split
    · refine Unmoved.evaluateHeat ?_
      exact k0.ofAxes rfl
    · exact k0
  | zoneFeedbackTimeout z =>
    show Unmoved s.core (zoneFault s.env z s.core)
    unfold zoneFault
    split
    · exact (k0.raiseCond _).evaluateHeat
    · exact k0
  | pinTimeout =>
    show Unmoved s.core (pinExpiry s.env s.core)
    unfold pinExpiry
    split
    · exact ((k0.raiseCond .pinFeedback).same ((Same.refl _).setStow .failed)).ofAxes (settlePinFeedback_axes _)
    · exact k0
  | _ => exact (workOf_aside hi h (by simp) s).motion

/-! ### Conditions -/

theorem workOf_states {i : Instr} (hi : Plain i) (h : changesConds i = false) (s : State) :
    (workOf i s).core.cond.states = s.core.cond.states := by
  cases i with
  | discardedFrame f => simp [changesConds] at h
  | transmissionStart gap =>
    show (startTransmission s.env s.slot gap s.core).cond.states = _
    unfold startTransmission
    split
    · split <;> rfl
    · rfl
  | beaconIntervalDue =>
    show (takeDue s.env s.core).cond.states = _
    unfold takeDue
    split <;> rfl
  | onSourceSet =>
    show (setOnSource s.core).cond.states = _
    unfold setOnSource
    split <;> rfl
  | releaseHoldExpiry =>
    show (endHold s.env s.core).cond.states = _
    unfold endHold
    split <;> rfl
  | cycleStart z =>
    show (cycleStart s.env z s.core).cond.states = _
    unfold cycleStart
    split <;> rfl
  | lostArbitration _ => rfl
  | abort => rfl
  | restTimerExpiry => rfl
  | onTimeEnd _ => rfl
  | anemometerPulse => rfl
  | recordWriteEnd => rfl
  | resetAsserted _ _ _ => rfl
  | supplyFailure _ _ _ _ => rfl
  | _ => simp [changesConds, changesClaim, movesAxes, changesCauses, changesPeers, orderCarried, touchesAll] at h

/-- What a row's work leaves of the blocks beside the line port, the row's settling leaves. -/
theorem work_blocks {f : State → State} {P : Core → Prop}
    (hP : ∀ {k k' : Core}, k'.axes = k.axes → k'.stow = k.stow → k'.fee = k.fee → k'.cond = k.cond → P k → P k')
    (h0 : P s.core) (h : P (f s).core) : P (work f s).core := by
  unfold work
  split
  · exact h0
  · exact hP (settle_axes _ _) (settle_stow _ _) (settle_fee _ _) (settle_cond _ _) h

/-- A row changes nothing of the blocks beside the line port that its work leaves; the rows of the start are others. -/
theorem exec_blocks {i : Instr} (ht : exec i s = .next t) {P : Core → Prop}
    (hP : ∀ {k k' : Core}, k'.axes = k.axes → k'.stow = k.stow → k'.fee = k.fee → k'.cond = k.cond → P k → P k')
    (hi : ¬rowOf i = .startInstant) (h0 : P s.core) (h : Plain (rowOf i) → P (workOf (rowOf i) s).core) : P t.core := by
  obtain ⟨hplain, -, rfl⟩ | ⟨he, -⟩ | he | hrow := exec_resetRow ht
  · exact work_blocks hP h0 (h hplain)
  · rw [he]
    exact hP (k := s.core) rfl rfl rfl rfl h0
  · rw [he]
    exact h0
  · exact absurd hrow hi

theorem ne_startInstant {i : Instr} (f : Instr → Bool) (hf : f .startInstant = true) (h : f i = false) :
    ¬i = .startInstant :=
  fun he => by rw [he, hf] at h; exact absurd h (by decide)

/-- Settles O10: the aspects with writes of their own by those writes, the motion, the stow state, the claim and the
conditions by the rows that are not named for them. -/
theorem frameOfTheBlocks : Obligations.FrameOfTheBlocks := by
  intro i s t ht c
  refine ⟨exec_samePart (p := .queue) ht rfl, fun h => ?_, exec_sameAspect (a := .causes) ht,
    exec_sameAspect (a := .mode) ht, exec_sameAspect (a := .sensors) ht, exec_sameAspect (a := .proof) ht,
    exec_sameAspect (a := .masks) ht, exec_sameAspect (a := .noise) ht, fun h => ?_, fun h => ?_, fun h => ?_,
    exec_sameAspect (a := .timers) ht⟩
  · have hm : Unmoved s.core t.core := exec_blocks ht (fun ha _ _ _ hk => hk.ofAxes ha)
        (ne_startInstant movesAxes rfl h)
      (.refl _) fun hp => workOf_unmoved hp h s
    exact ⟨hm .az, hm .el⟩
  · exact exec_blocks ht (P := fun k => k.stow.state = s.core.stow.state) (fun _ hs _ _ hk => by rw [hs]; exact hk)
      (ne_startInstant changesStowState rfl h) rfl fun hp => workOf_state hp h s
  · exact exec_blocks ht (P := fun k => k.fee.claim = s.core.fee.claim) (fun _ _ hf _ hk => by rw [hf]; exact hk)
      (ne_startInstant changesClaim rfl h) rfl fun hp => workOf_claim hp h s
  · exact exec_blocks ht (P := fun k => k.cond.states = s.core.cond.states) (fun _ _ _ hc hk => by rw [hc]; exact hk)
      (ne_startInstant changesConds rfl h) rfl fun hp => workOf_states hp h s

end Sys2Proof.Machine
end

section
/-! PROOFS. Layouts and arithmetic: a beacon's payload read back (12.2), the braking speed (R11), the azimuth turn (R22), the profile's bounds (R9 to R14), the heater share (R96, R99, R158, R159). -/

namespace Sys2Proof.Machine

/-! ## The beacon payload (12.2) -/

theorem word_halves (w : BitVec 16) : w.extractLsb' 8 8 ++ w.extractLsb' 0 8 = w :=
  BitVec.extractLsb'_append_extractLsb' (w := 8) (len := 8)

theorem triple_bytes (w : BitVec 24) : w.extractLsb' 16 8 ++ w.extractLsb' 8 8 ++ w.extractLsb' 0 8 = w := by
  rw [BitVec.extractLsb'_append_extractLsb'_eq_extractLsb' (len₁ := 8) (start₁ := 8) rfl]
  exact BitVec.extractLsb'_append_extractLsb' (w := 16) (len := 8)

/-- A field above spare bits and another field. -/
theorem extract_top (v : BitVec 2) (spare u : BitVec 3) : (v ++ spare ++ u).extractLsb' 6 2 = v := by
  rw [BitVec.extractLsb'_append_eq_of_le (by decide)]
  exact BitVec.extractLsb'_append_eq_left

/-- Settles O11: every field is cut out of the bytes that it was put into. -/
theorem beaconDecodesAsEncoded : Obligations.BeaconDecodesAsEncoded := by
  intro b
  simp only [decodeBeacon, encodeBeacon, bytes16, bytes24, List.cons_append, List.nil_append, byteAt, wordAt, tripleAt,
    List.getD_cons_zero, List.getD_cons_succ, BitVec.extractLsb'_append_eq_left, BitVec.extractLsb'_append_eq_right,
    word_halves, triple_bytes, extract_top]

/-! ## The integer square root (R11) -/

/-- The root found so far, and the bits yet to be set. -/
theorem isqrtBits_spec (n : Nat) : ∀ k r : Nat, r * r ≤ n → n < (r + 2 ^ k) * (r + 2 ^ k) →
    isqrtBits n k r * isqrtBits n k r ≤ n ∧ n < (isqrtBits n k r + 1) * (isqrtBits n k r + 1) := by
  intro k
  induction k with
  | zero => exact fun r hlo hhi => ⟨hlo, hhi⟩
  | succ k ih =>
    intro r hlo hhi
    unfold isqrtBits
    split
    · rename_i hset
      refine ih _ hset ?_
      rwa [Nat.add_assoc, ← Nat.two_mul, ← Nat.pow_succ']
    · rename_i hclear
      exact ih r hlo (Nat.lt_of_not_le hclear)

theorem isqrt_spec {n : Nat} (h : n < 2 ^ 64) : isqrt n * isqrt n ≤ n ∧ n < (isqrt n + 1) * (isqrt n + 1) :=
  isqrtBits_spec n 32 0 (Nat.zero_le n) (by simpa using h)

theorem absInt_nonneg (x : Int) : 0 ≤ absInt x := by unfold absInt; split <;> omega

/-- Settles O12. -/
theorem brakingSpeedIsFloorOfRoot : Obligations.BrakingSpeedIsFloorOfRoot := by
  intro a err ha hfit
  have hpos : 0 ≤ 2 * a * absInt err := Int.mul_nonneg (by omega) (absInt_nonneg err)
  generalize hp : 2 * a * absInt err = p at hfit hpos
  obtain ⟨n, rfl⟩ := Int.eq_ofNat_of_zero_le hpos
  have hroot : brakingSpeed a err = (isqrt n : Int) := by rw [brakingSpeed, hp, Int.toNat_natCast]
  obtain ⟨hlo, hhi⟩ := isqrt_spec (n := n) (by exact_mod_cast hfit)
  rw [hroot]
  exact ⟨Int.natCast_nonneg _, by exact_mod_cast hlo, by exact_mod_cast hhi⟩

/-! ## The azimuth turn (R22) -/

/-- The best of a list is one of it, and no worse than any, where the choice of two is for a transitive order. -/
theorem foldl_best {R : Int → Int → Prop} {better : Int → Int → Int} (refl : ∀ c, R c c)
    (trans : ∀ b c d, R b c → R c d → R b d)
    (choice : ∀ c d, (better c d = c ∧ R c d) ∨ (better c d = d ∧ R d c)) (l : List Int) :
    ∀ c, l.foldl better c ∈ c :: l ∧ ∀ d ∈ c :: l, R (l.foldl better c) d := by
  induction l with
  | nil => exact fun c => ⟨.head _, fun d hd => List.mem_singleton.mp hd ▸ refl c⟩
  | cons y ys ih =>
    intro c
    obtain ⟨hmem, hbest⟩ := ih (better c y)
    have hfirst := hbest (better c y) (.head _)
    rw [List.foldl_cons]
    obtain ⟨hb, hr⟩ | ⟨hb, hr⟩ := choice c y
    · rw [hb] at hmem hbest hfirst ⊢
      refine ⟨?_, fun d hd => ?_⟩
      · obtain he | hm := List.mem_cons.mp hmem
        · rw [he]; exact .head _
        · exact .tail _ (.tail _ hm)
      · obtain rfl | hd := List.mem_cons.mp hd
        · exact hfirst
        obtain rfl | hd := List.mem_cons.mp hd
        · exact trans _ _ _ hfirst hr
        · exact hbest d (.tail _ hd)
    · rw [hb] at hmem hbest hfirst ⊢
      refine ⟨.tail _ hmem, fun d hd => ?_⟩
      obtain rfl | hd := List.mem_cons.mp hd
      · exact trans _ _ _ hfirst hr
      · exact hbest d hd

theorem bestOf_spec {R : Int → Int → Prop} {better : Int → Int → Int} (refl : ∀ c, R c c)
    (trans : ∀ b c d, R b c → R c d → R b d)
    (choice : ∀ c d, (better c d = c ∧ R c d) ∨ (better c d = d ∧ R d c)) {l : List Int} {b : Int}
    (h : bestOf better l = some b) : b ∈ l ∧ ∀ d ∈ l, R b d := by
  cases l with
  | nil => exact absurd h nofun
  | cons c cs =>
    cases h
    exact foldl_best refl trans choice cs c

/-- Of two candidates within the soft limits the first is no worse: nearer to x, then nearer 0, then greater. -/
def NoWorseInside (x c d : Int) : Prop :=
  absInt (c - x) < absInt (d - x)
    ∨ (absInt (c - x) = absInt (d - x) ∧ (absInt c < absInt d ∨ (absInt c = absInt d ∧ d ≤ c)))

/-- Of two candidates outside them: nearer the soft range, then nearer to x, then greater. -/
def NoWorseOutside (lo hi x c d : Int) : Prop :=
  rangeGap lo hi c < rangeGap lo hi d
    ∨ (rangeGap lo hi c = rangeGap lo hi d
      ∧ (absInt (c - x) < absInt (d - x) ∨ (absInt (c - x) = absInt (d - x) ∧ d ≤ c)))

theorem betterInside_spec {x b : Int} {l : List Int} (h : bestOf (betterInside x) l = some b) :
    b ∈ l ∧ ∀ d ∈ l, NoWorseInside x b d := by
  refine bestOf_spec (fun c => .inr ⟨rfl, .inr ⟨rfl, le_rfl⟩⟩) (fun b c d hbc hcd => ?_) (fun c d => ?_) h
  · unfold NoWorseInside at *
    omega
  · unfold betterInside NoWorseInside
    split
    · exact .inr ⟨rfl, .inl ‹_›⟩
    split
    · exact .inr ⟨rfl, by omega⟩
    · exact .inl ⟨rfl, by omega⟩

theorem betterOutside_spec {lo hi x b : Int} {l : List Int} (h : bestOf (betterOutside lo hi x) l = some b) :
    b ∈ l ∧ ∀ d ∈ l, NoWorseOutside lo hi x b d := by
  refine bestOf_spec (fun c => .inr ⟨rfl, .inr ⟨rfl, le_rfl⟩⟩) (fun b c d hbc hcd => ?_) (fun c d => ?_) h
  · unfold NoWorseOutside at *
    omega
  · unfold betterOutside NoWorseOutside
    split
    · exact .inr ⟨rfl, .inl ‹_›⟩
    split
    · exact .inr ⟨rfl, by omega⟩
    · exact .inl ⟨rfl, by omega⟩

theorem inRangeInt_iff {lo hi c : Int} : inRangeInt lo hi c = true ↔ lo ≤ c ∧ c ≤ hi := by simp [inRangeInt]

theorem clampInt_bounds {lo hi : Int} (h : lo ≤ hi) (c : Int) : lo ≤ clampInt lo hi c ∧ clampInt lo hi c ≤ hi := by
  unfold clampInt; omega

/-- Settles O13: the candidates within the soft limits if there are some, all three otherwise; the best of them. -/
theorem azimuthTurnIsNearest : Obligations.AzimuthTurnIsNearest := by
  intro lo hi x a hle cs r
  cases hin : bestOf (betterInside x) (cs.filter fun c => inRangeInt lo hi c) with
  | some b =>
    obtain ⟨hmem, hbest⟩ := betterInside_spec hin
    obtain ⟨hcs, hrange⟩ := List.mem_filter.mp hmem
    obtain ⟨hlo, hhi⟩ := inRangeInt_iff.mp hrange
    have hr : r = { p := b, clamped := false } := by
      show azimuthTurn lo hi x a = _
      simp only [azimuthTurn, cs] at hin ⊢
      rw [hin]
    rw [hr]
    exact ⟨hlo, hhi, ⟨fun _ => ⟨b, hcs, hlo, hhi⟩, fun _ => rfl⟩,
      fun _ => ⟨hcs, fun c hc h1 h2 => hbest c (List.mem_filter.mpr ⟨hc, inRangeInt_iff.mpr ⟨h1, h2⟩⟩)⟩, nofun⟩
  | none =>
    have hnone : cs.filter (fun c => inRangeInt lo hi c) = [] := by
      cases hf : cs.filter (fun c => inRangeInt lo hi c) with
      | nil => rfl
      | cons c l => rw [hf] at hin; exact absurd hin nofun
    cases hout : bestOf (betterOutside lo hi x) cs with
    | none => exact absurd hout nofun
    | some b =>
      obtain ⟨hcs, hbest⟩ := betterOutside_spec hout
      obtain ⟨hlo, hhi⟩ := clampInt_bounds hle b
      have hr : r = { p := clampInt lo hi b, clamped := true } := by
        show azimuthTurn lo hi x a = _
        simp only [azimuthTurn, cs] at hin hout ⊢
        rw [hin, hout]
      rw [hr]
      refine ⟨hlo, hhi, ⟨nofun, fun ⟨c, hc, h1, h2⟩ => ?_⟩, nofun, fun _ => ⟨b, hcs, rfl, hbest⟩⟩
      exact absurd (inRangeInt_iff.mpr ⟨h1, h2⟩) (List.filter_eq_nil_iff.mp hnone c hc)

/-! ## The profile's bounds (R9 to R14) -/

section
variable {e : Env} {k : Core} {i : Axis}

theorem softClamp_bounds (h : softLow e i ≤ softHigh e i) (m : Motion) :
    softLow e i ≤ (softClamp e i m).x ∧ (softClamp e i m).x ≤ softHigh e i := by
  unfold softClamp
  split
  · exact ⟨le_rfl, h⟩
  split
  · exact ⟨h, le_rfl⟩
  · omega

theorem softClamp_carry {m : Motion} (h : 0 ≤ m.carry ∧ m.carry < 100) :
    0 ≤ (softClamp e i m).carry ∧ (softClamp e i m).carry < 100 := by
  unfold softClamp
  split
  · exact ⟨le_rfl, by norm_num⟩
  split
  · exact ⟨le_rfl, by norm_num⟩
  · exact h

theorem moveBy_carry (x v carry : Int) : 0 ≤ (moveBy x v carry).carry ∧ (moveBy x v carry).carry < 100 :=
  ⟨Int.emod_nonneg _ (by decide), Int.emod_lt_of_pos _ (by decide)⟩

theorem loopDuty_bounds (p : AxisParams) (x v reading : Int) :
    0 ≤ loopDuty p x v reading ∧ loopDuty p x v reading ≤ 1000 :=
  clampInt_bounds (by decide) _

theorem advanceActive_bounds (h : softLow e i ≤ softHigh e i) :
    (softLow e i ≤ (advanceActive e k i).x ∧ (advanceActive e k i).x ≤ softHigh e i)
      ∧ 0 ≤ (advanceActive e k i).carry ∧ (advanceActive e k i).carry < 100 := by
  refine ⟨softClamp_bounds h _, softClamp_carry ?_⟩
  split
  · exact ⟨le_rfl, by norm_num⟩
  · exact moveBy_carry ..

theorem advanceStopping_bounds (h : softLow e i ≤ softHigh e i) (hg : (getAxis k i).engaging = false) :
    (softLow e i ≤ (advanceStopping e k i).x ∧ (advanceStopping e k i).x ≤ softHigh e i)
      ∧ 0 ≤ (advanceStopping e k i).carry ∧ (advanceStopping e k i).carry < 100 := by
  unfold advanceStopping
  simp only [hg]
  exact ⟨softClamp_bounds h _, softClamp_carry (moveBy_carry ..)⟩

end

/-- Settles O14: R12's last step clamps the position, its division leaves the carry, R14 clamps the duty. -/
theorem profileStaysInBounds : Obligations.ProfileStaysInBounds := by
  intro e k i hle hstate
  obtain hactive | ⟨hstopping, hengaging⟩ := hstate
  · obtain ⟨⟨hlo, hhi⟩, hcarry⟩ := advanceActive_bounds (k := k) hle
    simp only [axisInterval, hactive]
    exact ⟨hlo, hhi, hcarry.1, hcarry.2, loopDuty_bounds ..⟩
  · obtain ⟨⟨hlo, hhi⟩, hcarry⟩ := advanceStopping_bounds hle hengaging
    simp only [axisInterval, hstopping]
    exact ⟨hlo, hhi, hcarry.1, hcarry.2, loopDuty_bounds ..⟩

/-! ## The heater share (R96, R99, R158, R159) -/

/-- The allowance exceeds neither the own demand nor the pool. -/
structure Shared (f : Feeder) : Prop where
  own : f.allowance ≤ f.ownDemand
  pool : f.allowance ≤ f.pool

theorem allowanceFor_bounds {pool own all : Nat} (h : own ≤ all) :
    allowanceFor pool own all ≤ own ∧ allowanceFor pool own all ≤ pool := by
  unfold allowanceFor
  split
  · exact ⟨Nat.zero_le _, Nat.zero_le _⟩
  split
  · exact ⟨le_rfl, h.trans ‹_›⟩
  · rename_i hown hpool
    refine ⟨Nat.div_le_of_le_mul ?_, Nat.div_le_of_le_mul ?_⟩
    · exact Nat.mul_le_mul_right _ (by omega)
    · rw [Nat.mul_comm all]
      exact Nat.mul_le_mul_left _ h

theorem ownDemand_le_feederDemand {e : Env} {f : Feeder} (h : f.ownDemand ≤ 65535) :
    f.ownDemand ≤ feederDemand e f := by
  unfold feederDemand satLoad
  exact Nat.le_min.mpr ⟨h, Nat.le_add_right _ _⟩

variable {e : Env} {k : Core}

theorem overcommitTest_demand (e : Env) (k : Core) : (overcommitTest e k).1.fee.ownDemand = k.fee.ownDemand := by
  unfold overcommitTest
  split
  · simp only []
    split
    · show (raiseCond .overload k).fee.ownDemand = _
      rw [raiseCond_fee]
    · exact congrArg Feeder.ownDemand (raiseCond_fee .overload k)
  · exact congrArg Feeder.ownDemand (endCond_fee .overload k)

theorem admitClaim_fee (f : Bool) (k : Core) :
    (admitClaim f k).fee = { k.fee with claim := { k.fee.claim with state := .active, forced := f } } := by
  unfold admitClaim
  simp only []
  split
  · rw [setStow_fee]
    split
    · rw [raiseCond_fee]; rfl
    · rfl
  · split
    · rw [raiseCond_fee]; rfl
    · rfl

/-- One computation shares the pool, and leaves the own demand. -/
theorem computePass_shared (h : k.fee.ownDemand ≤ 65535) :
    Shared (computePass e k).1.fee ∧ (computePass e k).1.fee.ownDemand = k.fee.ownDemand := by
  have hown : (overcommitTest e (withFigures e k)).1.fee.ownDemand = k.fee.ownDemand := overcommitTest_demand e _
  have handed (pool : Nat) (k2 : Core) (h2 : k2.fee.ownDemand = k.fee.ownDemand) :
      Shared (handAllowance e pool k2).fee ∧ (handAllowance e pool k2).fee.ownDemand = k.fee.ownDemand := by
    obtain ⟨ho, hp⟩ := allowanceFor_bounds (pool := pool) (ownDemand_le_feederDemand (e := e) (f := k2.fee) (h2 ▸ h))
    exact ⟨⟨ho, hp⟩, h2⟩
  unfold computePass
  simp only []
  split
  · obtain ⟨⟨ho, hp⟩, hd⟩ := handed (heaterPool e (withFigures e k).fee) _ hown
    rw [admitClaim_fee]
    exact ⟨⟨ho, hp⟩, hd⟩
  · exact handed _ _ hown

theorem computeTimes_shared : ∀ (n : Nat) (k : Core), k.fee.ownDemand ≤ 65535 → (0 < n ∨ Shared k.fee) →
    Shared (computeTimes e n k).fee := by
  intro n
  induction n with
  | zero => exact fun k _ hs => hs.resolve_left (lt_irrefl 0)
  | succ n ih =>
    intro k h _
    obtain ⟨hshared, hown⟩ := computePass_shared (e := e) h
    unfold computeTimes
    simp only []
    split
    · exact ih _ (hown ▸ h) (.inr hshared)
    · exact hshared

theorem heaterScale_le (allowance q : Nat) : heaterScale allowance q ≤ 1000 := by
  unfold heaterScale
  split
  · exact Nat.zero_le _
  · exact Nat.min_le_left ..

theorem lowerZone_output (period new : Nat) (z : Zone) : (lowerZone period new z).output = new := by
  unfold lowerZone; split <;> rfl

theorem lowerZone_demand (period new : Nat) (z : Zone) : (lowerZone period new z).demand = z.demand := by
  unfold lowerZone; split <;> rfl

/-- The output duty of a zone under an allowance applied (R96). -/
theorem applyAllowance_output (z : Fin 4) : (fourGet (applyAllowance e k).heat.zones z).output =
    if fitted e z then (fourGet k.heat.zones z).demand * heaterScale k.fee.allowance k.heat.demand / 1000 else 0 := by
  simp only [applyAllowance, fourGet_fourOf, lowerZone_output]

theorem applyAllowance_demand (z : Fin 4) :
    (fourGet (applyAllowance e k).heat.zones z).demand = (fourGet k.heat.zones z).demand := by
  simp only [applyAllowance, fourGet_fourOf, lowerZone_demand]

/-- Settles O15: each computation hands a share of the pool, and a scale of at most 1000 lowers each duty. -/
theorem heaterShareIsBounded : Obligations.HeaterShareIsBounded := by
  refine fun e k => ⟨fun hown => ?_, heaterScale_le .., fun z => ⟨?_, fun hzero => ?_⟩⟩
  · unfold compute
    split
    · obtain ⟨ho, hp⟩ := computeTimes_shared (e := e) 3 k hown (.inl (by decide))
      exact ⟨ho, fun _ => hp⟩
    · rename_i hb
      exact ⟨Nat.zero_le _, fun h => absurd h hb⟩
  · rw [applyAllowance_output, applyAllowance_demand]
    split
    · exact Nat.div_le_of_le_mul (by rw [Nat.mul_comm]; exact Nat.mul_le_mul_right _ (heaterScale_le ..))
    · exact Nat.zero_le _
  · rw [applyAllowance_output, hzero]
    split <;> simp [heaterScale]

end Sys2Proof.Machine
end

section
/-! PROOFS. An order's route: what its reception does to the station (R112 to R117), what an order that is ignored, taken or of bad form leaves (R162 to R167). -/

namespace Sys2Proof.Machine

variable {e : Env} {k : Core} {s : State}

/-! ## Noise (R112, R113) -/

/-- The line port with one more count of noise. -/
def noisier (l : LinePort) : LinePort := { l with noise := min 32 (l.noise + 1) }

theorem countNoise_few (h : k.line.noise + 1 < 16) : countNoise k = { k with line := noisier k.line } := by
  unfold countNoise
  simp only []
  rw [if_neg]
  · rfl
  · simp only [noiseRaise, noiseMax]
    omega

theorem countNoise_many (h : 16 ≤ k.line.noise + 1) :
    countNoise k = raiseCond .lineNoise { k with line := noisier k.line } := by
  unfold countNoise
  simp only []
  rw [if_pos]
  · rfl
  · simp only [noiseRaise, noiseMax]
    omega

/-- Counting noise either leaves all but the count, or raises LINE_NOISE. -/
theorem countNoise_cases (k : Core) :
    countNoise k = { k with line := noisier k.line }
      ∨ countNoise k = raiseCond .lineNoise { k with line := noisier k.line } := by
  rcases Nat.lt_or_ge (k.line.noise + 1) 16 with h | h
  · exact .inl (countNoise_few h)
  · exact .inr (countNoise_many h)

theorem countNoise_line (k : Core) : LineSame (noisier k.line) (countNoise k).line := by
  obtain h | h := countNoise_cases k <;> rw [h]
  · exact .refl _
  · exact raiseCond_line .lineNoise { k with line := noisier k.line }

theorem countNoise_other {c : Cond} (hc : ¬c = .lineNoise) (k : Core) :
    condAt (countNoise k).cond c = condAt k.cond c := by
  obtain h | h := countNoise_cases k <;> rw [h]
  exact raiseCond_other hc _

theorem countNoise_motion (k : Core) (i : Axis) : motion (getAxis (countNoise k) i) = motion (getAxis k i) := by
  obtain h | h := countNoise_cases k <;> rw [h]
  · cases i <;> rfl
  · exact (raiseCond_motion _ _ i).trans (by cases i <;> rfl)

theorem countNoise_blocks (k : Core) :
    (countNoise k).stow.state = k.stow.state ∧ (countNoise k).stow.causes = k.stow.causes ∧ (countNoise k).heat = k.heat
      ∧ (countNoise k).fee = k.fee := by
  obtain h | h := countNoise_cases k <;> rw [h]
  · exact ⟨rfl, rfl, rfl, rfl⟩
  · exact ⟨raiseCond_state .., raiseCond_causes .., raiseCond_heat .., raiseCond_fee ..⟩

/-- The receiver counts noise where it reads the line and does not drive it (R110, R112). -/
theorem discard_heard (hr : receiving e = true) (hd : driving k.line = false) : discard e k = countNoise k := by
  simp [discard, hr, hd]

theorem discard_driving (hd : driving k.line = true) : discard e k = k := by simp [discard, hd]

/-! ## A valid frame of another origin (R117) -/

theorem hearOther_unconfigured (h : e.setup.configured = false) : hearOther e k = k := by simp [hearOther, h]

/-- The isolation timer restarts, and ISOLATION is no cause. -/
theorem hearOther_configured (h : e.setup.configured = true) :
    (hearOther e k).line.isolationTimer = some 0
      ∧ (hearOther e k).stow.causes = { k.stow.causes with isolation := false } := by
  simp only [hearOther, h, if_true]
  refine ⟨(updateCauses_same _ _).line.isolation.trans (by rw [endCond_line]), ?_⟩
  rw [updateCauses_causes, endCond_stow]

/-! ## Reception of an order -/

theorem hearOrder_deaf (o : Order) (h : receiving s.env = false) : hearOrder o s = s := by simp [hearOrder, h]

theorem hearOrder_long {o : Order} (hr : receiving s.env = true) (hl : tooLong o = true) :
    hearOrder o s = { s with core := discard s.env s.core } := by simp [hearOrder, hr, hl]

theorem hearOrder_console {o : Order} (hr : receiving s.env = true) (hl : tooLong o = false)
    (hc : isConsole o.console = true) : hearOrder o s = { s with core := hearOther s.env s.core } := by
  simp [hearOrder, hr, hl, hc]

/-- Where the receiver neither counts nor passes a frame on, hearing it does nothing. -/
theorem hearOrder_nothing {o : Order} (h : receiving s.env = false ∨ (tooLong o = true ∧ driving s.core.line = true)
    ∨ (tooLong o = false ∧ (isConsole o.console = false ∨ s.env.setup.configured = false))) : hearOrder o s = s := by
  cases hr : receiving s.env with
  | false => exact hearOrder_deaf o hr
  | true =>
    obtain hf | ⟨hl, hd⟩ | ⟨hl, hc⟩ := h
    · exact absurd (hr.symm.trans hf) (by decide)
    · rw [hearOrder_long hr hl, discard_driving hd]
    · cases hco : isConsole o.console with
      | false => simp [hearOrder, hr, hl, hco]
      | true =>
        have hconf := hc.resolve_left (by simp [hco])
        rw [hearOrder_console hr hl hco, hearOther_unconfigured hconf]

/-! ## Every order row is one form and one owner -/

/-- A row of an order takes it by the form of its kind, and hands it to the kind's owner. -/
structure Route (c : Instr) (o : Order) where
  {Args : Type}
  parse : List Byte → Option Args
  act : Args → State → State × Code
  takes : workOf c = takeOrder o parse act
  form : formGood c = (parse o.args).isSome

/-- The route of every order row (R165). -/
theorem exists_route {c : Instr} {o : Order} (hc : orderCarried c = some o) (hr : orderRow c = true) :
    Nonempty (Route c o) := by
  cases c with
  | undefinedOrderKind console p =>
    cases hc
    refine ⟨⟨noForm, fun _ s => (s, .argument), ?_, rfl⟩⟩
    exact takeKind_undefined _ _ (by simpa [orderRow] using hr)
  | point o => cases hc; exact ⟨⟨pointArgs, _, rfl, rfl⟩⟩
  | hold o => cases hc; exact ⟨⟨noArgs, _, rfl, rfl⟩⟩
  | brake o => cases hc; exact ⟨⟨noArgs, _, rfl, rfl⟩⟩
  | stow o => cases hc; exact ⟨⟨noArgs, _, rfl, rfl⟩⟩
  | unstow o => cases hc; exact ⟨⟨noArgs, _, rfl, rfl⟩⟩
  | quiet o => cases hc; exact ⟨⟨noArgs, _, rfl, rfl⟩⟩
  | wake o => cases hc; exact ⟨⟨noArgs, _, rfl, rfl⟩⟩
  | lock o => cases hc; exact ⟨⟨lockKindArg, _, rfl, rfl⟩⟩
  | unlock o => cases hc; exact ⟨⟨lockKindArg, _, rfl, rfl⟩⟩
  | release o => cases hc; exact ⟨⟨noArgs, _, rfl, rfl⟩⟩
  | heat o => cases hc; exact ⟨⟨heatModeArg, _, rfl, rfl⟩⟩
  | clear o => cases hc; exact ⟨⟨classSetArg, _, rfl, rfl⟩⟩
  | prove o => cases hc; exact ⟨⟨proofTargetArg, _, rfl, rfl⟩⟩
  | _ => simp [orderCarried] at hc

theorem isResetRow_of_order {c : Instr} {o : Order} (hc : orderCarried c = some o) : isResetRow c = false := by
  cases c <;> simp_all [orderCarried, isResetRow]

/-- On a live station an order row answers its route, settled. -/
theorem exec_route {c : Instr} {o : Order} (hc : orderCarried c = some o) (r : Route c o) (hl : Live s) :
    exec c s = .next (settle (intervalOf s) (takeOrder o r.parse r.act s)) := by
  rw [exec_live (isResetRow_of_order hc) hl, r.takes]

/-- Settles O16: an order that is not taken is heard and no more, and hearing has four cases. -/
theorem ignoredOrderDoesNothing : Obligations.IgnoredOrderDoesNothing := by
  intro c o s hc hrow hlive hnot h
  obtain ⟨r⟩ := exists_route hc hrow
  obtain ⟨henv, hslot, hstore, -, -, hmode⟩ := hearOrder_parts o s
  have hline := settle_line (intervalOf s) h
  obtain ⟨-, hrecords, hmarks, -⟩ := settle_store (intervalOf s) h
  refine ⟨settle (intervalOf s) h, ?_, hslot, henv, ?_, settle_axes .., settle_stow .., settle_heat .., settle_fee ..,
    settle_cond .., hrecords.trans (congrArg Store.records hstore), hmarks.trans (congrArg Store.marks hstore), ?_,
      ?_, ?_⟩
  · rw [exec_route hc r hlive, takeOrder_ignored hnot]
  · rw [settle_heat]
    exact hmode
  · intro hcase
    have hs : h = s := hearOrder_nothing hcase
    rw [settle_axes, settle_stow, settle_heat, settle_fee, settle_cond, hline.noise, hline.isolation, hs]
    exact ⟨rfl, rfl, rfl, rfl, rfl, rfl, rfl⟩
  · intro hr hlong hdrive
    have hcore : h.core = countNoise s.core := by
      show (hearOrder o s).core = _
      rw [hearOrder_long hr hlong]
      exact discard_heard hr hdrive
    obtain ⟨hstate, hcauses, hheat, hfee⟩ := countNoise_blocks s.core
    have hsame := countNoise_line s.core
    rw [settle_axes, settle_stow, settle_heat, settle_fee, settle_cond, hline.noise, hline.isolation, hcore]
    refine ⟨hsame.noise, fun hn => ?_, fun hn => ?_, fun c hc => countNoise_other hc _, countNoise_motion _ .az,
      countNoise_motion _ .el, hstate, hcauses, hheat, hfee, hsame.isolation⟩
    · rw [countNoise_many hn]
      exact raiseCond_active ..
    · rw [countNoise_few hn]
      exact ⟨rfl, rfl, rfl⟩
  · intro hr hlong hconsole hconf
    have hcore : h.core = hearOther s.env s.core := by
      show (hearOrder o s).core = _
      rw [hearOrder_console hr hlong hconsole]
    obtain ⟨htimer, hcauses⟩ := hearOther_configured (k := s.core) hconf
    rw [settle_stow, hline.isolation, hcore]
    exact ⟨htimer, hcauses⟩

/-! ## The result (R167) -/

theorem takeOrder_slot {α : Type} {o : Order} {parse : List Byte → Option α} {act : α → State → State × Code}
    (ht : orderTaken o s = true) : ∃ c s', takeOrder o parse act s = giveResult o c s' := by
  cases hp : parse o.args with
  | none => exact ⟨_, _, takeOrder_bad ht hp⟩
  | some a => exact ⟨_, _, takeOrder_good ht hp⟩

/-- A request leaves a beacon pending, and the transmitter not IDLE (R107). -/
theorem request_pending (p : Priority) (k : Core) :
    (request p k).line.pending.isSome = true ∧ ¬(request p k).line.tx = .idle := by
  refine ⟨rfl, ?_⟩
  simp only [request_line, requestOn]
  split
  · simp
  · assumption

/-- What a request has left pending, requests made later leave pending. -/
theorem LineSame.requested {l l' : LinePort} (h : LineSame l l') (hp : l.pending.isSome = true) (ht : ¬l.tx = .idle) :
    l'.pending.isSome = true ∧ ¬l'.tx = .idle := by
  refine ⟨h.pending hp, ?_⟩
  obtain htx | ⟨hidle, -⟩ := h.tx
  · rwa [htx]
  · exact absurd hidle ht

/-- Settles O17. -/
theorem takenOrderAnswers : Obligations.TakenOrderAnswers := by
  intro c o s hc hrow ht
  obtain ⟨hlive, htaken⟩ := ht
  obtain ⟨r⟩ := exists_route hc hrow
  obtain ⟨code, u, hu⟩ := takeOrder_slot (parse := r.parse) (act := r.act) htaken
  refine ⟨_, exec_route hc r hlive, ?_⟩
  rw [hu]
  refine ⟨rfl, rfl, fun hscope => ?_⟩
  have hcore : (giveResult o code u).core = request .normal u.core := by simp [giveResult, hscope]
  obtain ⟨hp, hx⟩ := request_pending .normal u.core
  exact (settle_line _ _).requested (hcore ▸ hp) (hcore ▸ hx)

/-- Settles O18: an order of bad form is heard and answered, and no owner acts. -/
theorem malformedOrderIsArgument : Obligations.MalformedOrderIsArgument := by
  intro c o s hc hrow ht hform
  obtain ⟨hlive, htaken⟩ := ht
  obtain ⟨r⟩ := exists_route hc hrow
  have hbad : r.parse o.args = none := by
    rw [r.form] at hform
    exact Option.isNone_iff_eq_none.mp (by simpa using hform)
  obtain ⟨henv, -, hstore, -⟩ := hearOrder_parts o s
  obtain ⟨haxes, hstow, hheat, hfee, hcond, -⟩ := giveResult_core o .argument (hearOrder o s)
  obtain ⟨-, hrecords, hmarks, -⟩ := settle_store (intervalOf s) (giveResult o .argument (hearOrder o s))
  refine ⟨_, exec_route hc r hlive, ?_⟩
  rw [takeOrder_bad htaken hbad]
  rw [giveResult_store, hstore] at hrecords hmarks
  exact ⟨rfl, henv, (settle_axes ..).trans haxes, (settle_stow ..).trans hstow, (settle_heat ..).trans hheat,
    (settle_fee ..).trans hfee, (settle_cond ..).trans hcond, hrecords, hmarks⟩

end Sys2Proof.Machine
end

section
/-! PROOFS. The feeder account's computations as they run on a claim (R148 to R157), and the axis motion's orders: POINT, HOLD and BRAKE (R22 to R25). -/

namespace Sys2Proof.Machine

variable {e : Env} {k : Core}

theorem getAxis_of_axes {k' : Core} (h : k'.axes = k.axes) (i : Axis) : getAxis k' i = getAxis k i := by
  rw [getAxis, getAxis, h]

/-! ## Computations on a claim that cannot become ACTIVE -/

/-- A claim that no computation admits: NONE, or a WAITING SLEW claim not yet announced (R150, R151, R153). -/
def Unadmitted (c : Claim) : Prop :=
  c.state = .none ∨ (c.state = .waiting ∧ c.announced = none ∧ ¬c.kind = .stow)

theorem Unadmitted.notActive {c : Claim} (h : Unadmitted c) : ¬c.state = .active := by
  obtain h | ⟨h, -⟩ := h <;> rw [h] <;> decide

theorem admissionTest_unadmitted (h : Unadmitted k.fee.claim) : admissionTest e k = none := by
  unfold admissionTest
  obtain h | ⟨-, ha, hk⟩ := h
  · simp [h]
  · simp [mayAdmit, claimSettled, ha, mustForce, hk]

/-- What a computation leaves of the blocks beside the feeder account's figures and the heater unit. -/
structure Computed (k k' : Core) : Prop where
  axes : k'.axes = k.axes
  stow : k'.stow = k.stow
  line : k'.line = k.line
  claim : k'.fee.claim = k.fee.claim

theorem Computed.refl (k : Core) : Computed k k := ⟨rfl, rfl, rfl, rfl⟩

theorem overcommitTest_idle (h : ¬k.fee.claim.state = .active) : overcommitTest e k = (endCond .overload k, false) := by
  simp [overcommitTest, h]

theorem computePass_unadmitted (h : Unadmitted k.fee.claim) :
    (computePass e k).2 = false ∧ Computed k (computePass e k).1 := by
  have hover : overcommitTest e (withFigures e k) = (endCond .overload (withFigures e k), false) :=
    overcommitTest_idle h.notActive
  have hfee : (endCond .overload (withFigures e k)).fee.claim = k.fee.claim := by rw [endCond_fee]; rfl
  have hadmit : admissionTest e (endCond .overload (withFigures e k)) = none := admissionTest_unadmitted (hfee ▸ h)
  unfold computePass
  simp only [hover, hadmit]
  refine ⟨trivial, ?_, ?_, ?_, hfee⟩
  · exact endCond_axes ..
  · exact endCond_stow ..
  · exact endCond_line ..

/-- A computation leaves a claim that it cannot make ACTIVE, and the other blocks with it. -/
theorem compute_unadmitted (h : Unadmitted k.fee.claim) : Computed k (compute e k) := by
  obtain ⟨hagain, hcomputed⟩ := computePass_unadmitted (e := e) h
  unfold compute
  split
  · simp only [computeTimes, hagain]
    exact hcomputed
  · exact ⟨rfl, rfl, rfl, rfl⟩

/-- A claim that goes leaves the axes and the stow unit as they are (R143). -/
theorem dropClaim_blocks (e : Env) (k : Core) :
    (dropClaim e k).axes = k.axes ∧ (dropClaim e k).stow = k.stow ∧ (dropClaim e k).fee.claim = noClaim := by
  have hfee : (endCond .stowForced (request .urgent { k with fee := { k.fee with claim := noClaim } })).fee.claim =
      noClaim := by
    rw [endCond_fee]; rfl
  obtain ⟨haxes, hstow, -, hclaim⟩ := compute_unadmitted (e := e) (.inl (congrArg Claim.state hfee))
  exact ⟨haxes.trans (endCond_axes ..), hstow.trans (endCond_stow ..), hclaim.trans hfee⟩

theorem withdrawWaiting_blocks (e : Env) (k : Core) :
    (withdrawWaiting e k).axes = k.axes ∧ (withdrawWaiting e k).stow = k.stow
      ∧ (withdrawWaiting e k).fee.claim = if k.fee.claim.state = .waiting then noClaim else k.fee.claim := by
  unfold withdrawWaiting
  split
  · exact dropClaim_blocks e k
  · exact ⟨rfl, rfl, rfl⟩

/-- A withdrawal leaves no WAITING claim. -/
theorem withdrawWaiting_state (e : Env) (k : Core) : ¬(withdrawWaiting e k).fee.claim.state = .waiting := by
  obtain ⟨-, -, hclaim⟩ := withdrawWaiting_blocks e k
  rw [hclaim]
  split
  · decide
  · assumption

theorem withdrawClaim_blocks (e : Env) (k : Core) :
    (withdrawClaim e k).axes = k.axes ∧ (withdrawClaim e k).stow = k.stow
      ∧ (withdrawClaim e k).fee.claim.state = .none := by
  unfold withdrawClaim
  split
  · exact ⟨rfl, rfl, ‹_›⟩
  · obtain ⟨haxes, hstow, hclaim⟩ := dropClaim_blocks e k
    exact ⟨haxes, hstow, by rw [hclaim]; rfl⟩

/-! ## Computations on any claim -/

/-- What a computation leaves of a claim: a WAITING one may become ACTIVE, an ACTIVE one may be degraded. -/
structure ClaimRuns (c c' : Claim) : Prop where
  kind : c'.kind = c.kind
  accAz : c'.accAz = c.accAz
  accEl : c'.accEl = c.accEl
  waitAge : c'.waitAge = c.waitAge
  announced : c'.announced = c.announced
  none : c.state = .none → c'.state = .none
  raised : ¬c.state = .none → ¬c'.state = .none
  active : c.state = .active → c'.state = .active ∧ c'.forced = c.forced

theorem ClaimRuns.refl (c : Claim) : ClaimRuns c c := ⟨rfl, rfl, rfl, rfl, rfl, id, id, fun h => ⟨h, rfl⟩⟩

theorem ClaimRuns.trans {a b c : Claim} (h : ClaimRuns a b) (g : ClaimRuns b c) : ClaimRuns a c :=
  ⟨g.kind.trans h.kind, g.accAz.trans h.accAz, g.accEl.trans h.accEl, g.waitAge.trans h.waitAge,
    g.announced.trans h.announced, g.none ∘ h.none, g.raised ∘ h.raised, fun ha => by
      obtain ⟨hb, hf⟩ := h.active ha
      obtain ⟨hc, hg⟩ := g.active hb
      exact ⟨hc, hg.trans hf⟩⟩

theorem overcommitTest_runs (e : Env) (k : Core) : ClaimRuns k.fee.claim (overcommitTest e k).1.fee.claim := by
  unfold overcommitTest
  split
  · simp only []
    split
    · show ClaimRuns k.fee.claim (degradeClaim e (raiseCond .overload k)).fee.claim
      unfold degradeClaim
      rw [raiseCond_fee]
      exact ⟨rfl, rfl, rfl, rfl, rfl, id, id, fun h => ⟨h, rfl⟩⟩
    · rw [raiseCond_fee]
      exact .refl _
  · rw [endCond_fee]
    exact .refl _

theorem admitClaim_runs (f : Bool) (h : k.fee.claim.state = .waiting) :
    ClaimRuns k.fee.claim (admitClaim f k).fee.claim := by
  rw [admitClaim_fee]
  exact ⟨rfl, rfl, rfl, rfl, rfl, fun hn => absurd (h.symm.trans hn) (by decide), fun _ => nofun,
    fun ha => absurd (h.symm.trans ha) (by decide)⟩

theorem admissionTest_waiting {f : Bool} (h : admissionTest e k = some f) : k.fee.claim.state = .waiting := by
  unfold admissionTest at h
  split at h
  · rename_i hc
    exact hc.1
  · exact absurd h nofun

theorem computePass_runs (e : Env) (k : Core) : ClaimRuns k.fee.claim (computePass e k).1.fee.claim := by
  have hover : ClaimRuns k.fee.claim (overcommitTest e (withFigures e k)).1.fee.claim :=
      overcommitTest_runs e (withFigures e k)
  unfold computePass
  simp only []
  split
  · rename_i f hadmit
    exact hover.trans (admitClaim_runs (k := handAllowance e _ _) f (admissionTest_waiting hadmit))
  · exact hover

theorem computeTimes_runs (e : Env) : ∀ (n : Nat) (k : Core), ClaimRuns k.fee.claim (computeTimes e n k).fee.claim := by
  intro n
  induction n with
  | zero => exact fun k => .refl _
  | succ n ih =>
    intro k
    unfold computeTimes
    simp only []
    split
    · exact (computePass_runs e k).trans (ih _)
    · exact computePass_runs e k

theorem compute_runs (e : Env) (k : Core) : ClaimRuns k.fee.claim (compute e k).fee.claim := by
  unfold compute
  split
  · exact computeTimes_runs e 3 k
  · exact .refl _

theorem compute_runs_of {c : Claim} (h : k.fee.claim = c) : ClaimRuns c (compute e k).fee.claim := h ▸ compute_runs e k

/-! ## A request of headroom (R140, R141) -/

theorem requestClaim_unbudgeted (h : hasBudget e = false) (kind : ClaimKind) (az el : Bool) :
    requestClaim e kind az el k = k := by simp [requestClaim, h]

/-- Without an accelerating axis a WAITING claim is withdrawn. -/
theorem requestClaim_none (h : hasBudget e = true) (kind : ClaimKind) :
    requestClaim e kind false false k = withdrawWaiting e k := by simp [requestClaim, h]

section
variable {kind : ClaimKind} {az el : Bool} (h : hasBudget e = true) (hacc : az = true ∨ el = true)
include h hacc

theorem requestClaim_raises (hc : k.fee.claim.state = .none) (hkind : ¬kind = .stow) :
    (requestClaim e kind az el k).fee.claim =
      { noClaim with
        kind := kind, state := .waiting, accAz := az, accEl := el, amount := claimAmount e k az el,
        need := claimAmount e k az el - ownLoad k.fee } := by
  have heq : requestClaim e kind az el k = raiseClaim e kind az el k := by
    unfold requestClaim
    rw [if_neg (by simp [h]), if_pos (by simpa using hacc), hc]
  rw [heq]
  unfold raiseClaim
  exact (compute_unadmitted (.inr ⟨rfl, rfl, hkind⟩)).claim

theorem requestClaim_resizes (hc : k.fee.claim.state = .waiting) :
    ClaimRuns (sizedClaim e k az el { k.fee.claim with kind := waitingKind k.fee.claim.kind kind })
      (requestClaim e kind az el k).fee.claim := by
  have heq : requestClaim e kind az el k = resizeClaim e (waitingKind k.fee.claim.kind kind) az el k := by
    unfold requestClaim
    rw [if_neg (by simp [h]), if_pos (by simpa using hacc), hc]
  rw [heq]
  unfold resizeClaim
  exact compute_runs_of rfl

theorem requestClaim_converts (hc : k.fee.claim.state = .active) :
    ClaimRuns { k.fee.claim with kind := kind } (requestClaim e kind az el k).fee.claim := by
  have heq : requestClaim e kind az el k = convertClaim e kind k := by
    unfold requestClaim
    rw [if_neg (by simp [h]), if_pos (by simpa using hacc), hc]
  rw [heq]
  unfold convertClaim
  split
  · rename_i hk
    rw [← hk]
    exact .refl _
  · exact compute_runs_of rfl

end

/-! ## Targets (R2, R3, R4, R23) -/

/-- The posture is CONFIG by the environment alone (R122). -/
theorem posture_config (e : Env) (k : Core) :
    posture e k = .config ↔ (!e.setup.configured || systemAll e.list) = true := by
  unfold posture
  repeat' split
  all_goals simp_all

/-- A prohibition depends on the environment and the park state. -/
theorem releaseProhibited_park {k k' : Core} (h : k'.stow.park = k.stow.park) :
    releaseProhibited e k' = releaseProhibited e k := by
  have hp : decide (posture e k' = .config) = decide (posture e k = .config) :=
    decide_eq_decide.mpr ((posture_config e k').trans (posture_config e k).symm)
  unfold releaseProhibited
  rw [hp, h]

theorem enterUnbraking_free (h : e.inputs.ampFault = false) (i : Axis) (t : Target) : enterUnbraking e i t k =
    putAxis k i { getAxis k i with
      state := .unbraking, target := t, releasePending := false, brakeTimer := some 0, brakeSeen := false } := by
  simp [enterUnbraking, h]

/-- An axis's record after a new target, no fault of the amplifier asserted. -/
def targeted (no : Bool) (idle : Option Nat) (t : Target) (r : AxisRec) : AxisRec :=
  match r.state with
  | .braked =>
    if no then { r with target := t, releasePending := true }
    else { r with state := .unbraking, target := t, releasePending := false, brakeTimer := some 0, brakeSeen := false }
  | .unbraking => { r with target := t }
  | .active => { r with target := t, idleTimer := if isHolding { r with target := t } then idle else none }
  | .stopping =>
    if r.engaging || no then { r with target := t, releasePending := true }
    else
      { r with
        state := .active, engaging := false, target := t, releasePending := false, brakeTimer := none, followTimer := 0,
        fresh := false, idleTimer := if isHolding { r with target := t } then idle else none }
  | .fault => r

/-- A new target changes its own axis's record and AZ_RANGE, no more. -/
theorem giveTarget_eq (h : e.inputs.ampFault = false) (i : Axis) (t : Target) (k : Core) :
    giveTarget e i t k =
      putAxis (endRange i k) i (targeted (releaseProhibited e k) (newIdleTimer k) t (getAxis k i)) := by
  have hsame : putAxis (endRange i k) i (getAxis (endRange i k) i) = endRange i k := by
    cases i <;> cases h : endRange _ k <;> rfl
  have hno : releaseProhibited e (endRange i k) = releaseProhibited e k :=
      releaseProhibited_park (by rw [endRange_stow])
  unfold giveTarget targeted
  simp only []
  cases hstate : (getAxis k i).state with
  | braked =>
    simp only [requestRelease, hno, enterUnbraking_free h, endRange_axis]
    split
    · rw [hstate]
    · rfl
  | unbraking => rfl
  | active => rfl
  | stopping =>
    simp only []
    split <;> rfl
  | fault =>
    simp only []
    rw [← endRange_axis i i k, hsame]

theorem targeted_spec {r : AxisRec} (hf : ¬r.state = .fault) (no : Bool) (idle : Option Nat) (t : Target) :
    (targeted no idle t r).target = t ∧ ((targeted no idle t r).state, (targeted no idle t r).releasePending) =
      pointedState no r
      ∧ (targeted no idle t r).x = r.x ∧ (targeted no idle t r).v = r.v ∧ (targeted no idle t r).carry = r.carry := by
  unfold targeted pointedState
  cases hs : r.state with
  | braked => cases no <;> simp
  | unbraking => simp
  | active => simp
  | stopping =>
    simp only []
    split <;> simp
  | fault => exact absurd hs hf

/-! ## POINT (R22, R23) -/

/-- The blocks with both targets given. -/
def pointed (e : Env) (a : PointArgs) (k : Core) : Core :=
  giveTarget e .el (pointTarget a e.now (pointElevation e a).p a.elRate)
    (giveTarget e .az (pointTarget a e.now (pointAzimuth e a k).p a.azRate) k)

theorem pointed_blocks (h : e.inputs.ampFault = false) (a : PointArgs) (k : Core) :
    (pointed e a k).fee = k.fee
      ∧ (pointed e a k).axes.az = targeted (releaseProhibited e k) (newIdleTimer k)
          (pointTarget a e.now (pointAzimuth e a k).p a.azRate) k.axes.az
      ∧ (pointed e a k).axes.el = targeted (releaseProhibited e k) (newIdleTimer k)
          (pointTarget a e.now (pointElevation e a).p a.elRate) k.axes.el := by
  unfold pointed
  rw [giveTarget_eq h, giveTarget_eq h]
  have hpark : releaseProhibited e (putAxis (endRange .az k) .az (targeted (releaseProhibited e k) (newIdleTimer k)
      (pointTarget a e.now (pointAzimuth e a k).p a.azRate) (getAxis k .az))) = releaseProhibited e k :=
    releaseProhibited_park (by rw [putAxis_stow, endRange_stow])
  have hidle (r : AxisRec) : newIdleTimer (putAxis (endRange .az k) .az r) = newIdleTimer k := by
    rw [newIdleTimer, newIdleTimer, putAxis_stow, endRange_stow]
  have hel (r : AxisRec) : getAxis (putAxis (endRange .az k) .az r) .el = k.axes.el := by
    rw [getAxis_el, putAxis_az_el]
    exact endRange_axis .az .el k
  rw [hpark, hidle, hel]
  exact ⟨(endRange_fee .az k), rfl, rfl⟩

theorem slewClaim_motion (e : Env) (k : Core) (i : Axis) : motion (getAxis (slewClaim e k) i) = motion (getAxis k i) :=
  (Same.requestClaim (m := true) _ _ _ (Same.refl k)).axis i

theorem noFault_of_accepted {a : PointArgs} (h : pointRefusal e a k = none) (i : Axis) :
    ¬(getAxis k i).state = .fault := by
  have hfault : someFault k = false := by
    unfold pointRefusal at h
    split_ifs at h
    simp_all
  simp only [someFault, Bool.or_eq_false_iff, decide_eq_false_iff_not] at hfault
  obtain ⟨haz, hel⟩ := hfault
  cases i
  · exact haz
  · exact hel

/-- The claim after a POINT by the four cases of R23 and R140: `c` before it, `az` and `el` the axes that must
accelerate. -/
theorem slewClaim_cases (h : hasBudget e = true) (k : Core) :
    let c := k.fee.claim
    let c' := (slewClaim e k).fee.claim
    let az := mustAccelerate e k .az
    let el := mustAccelerate e k .el
    (az = false → el = false → c' = (if c.state = .waiting then noClaim else c))
      ∧ ((az = true ∨ el = true) →
        (c.state = .none → c' =
            { noClaim with
              kind := .slew, state := .waiting, accAz := az, accEl := el, amount := claimAmount e k az el,
              need := claimAmount e k az el - ownLoad k.fee })
          ∧ (c.state = .waiting → ¬c'.state = .none ∧ c'.accAz = az ∧ c'.accEl = el ∧ c'.waitAge = c.waitAge
              ∧ c'.announced = c.announced ∧ c'.kind = waitingKind c.kind .slew)
          ∧ (c.state = .active → c'.state = .active ∧ c'.kind = .slew ∧ c'.accAz = c.accAz ∧ c'.accEl = c.accEl)) := by
  intro c c' az el
  refine ⟨fun haz hel => ?_, fun hacc => ⟨fun hc => ?_, fun hc => ?_, fun hc => ?_⟩⟩
  · have heq : slewClaim e k = withdrawWaiting e k := by
      rw [slewClaim, show mustAccelerate e k .az = false from haz, show mustAccelerate e k .el = false from hel,
        requestClaim_none h]
    obtain ⟨-, -, hclaim⟩ := withdrawWaiting_blocks e k
    show (slewClaim e k).fee.claim = _
    rw [heq, hclaim]
  · exact requestClaim_raises h hacc hc (by decide)
  · have hruns := requestClaim_resizes (kind := .slew) h hacc hc
    exact ⟨hruns.raised (by rw [sizedClaim, hc]; decide), hruns.accAz, hruns.accEl, hruns.waitAge, hruns.announced,
      hruns.kind⟩
  · have hruns := requestClaim_converts (kind := .slew) h hacc hc
    obtain ⟨hactive, -⟩ := hruns.active hc
    exact ⟨hactive, hruns.kind, hruns.accAz, hruns.accEl⟩

theorem motion_carry {r r' : AxisRec} (h : motion r' = motion r) : r'.carry = r.carry :=
  (congrArg AxisRec.carry h : (motion r').carry = (motion r).carry)

/-- Settles O20: the targets by each axis's state, the claim by the four cases of R23 and R140. -/
theorem pointGivesTargets : Obligations.PointGivesTargets := by
  intro o a s ht hargs hrefusal hamp
  obtain ⟨henv, -⟩ := hearOrder_parts o s
  refine ⟨_, (exec_point o s).trans (run_takeOrder_onCore pointOrder ht hargs), ?_⟩
  obtain ⟨haxes, -, hfee, -⟩ := afterOrder_blocks (intervalOf s) o (hearOrder o s)
    (pointOrder a (hearOrder o s).env (hearOrder o s).core)
  have hwork : (pointOrder a (hearOrder o s).env (hearOrder o s).core).1 =
      slewClaim s.env (pointed s.env a (hearOrder o s).core) := by
    rw [henv]
    simp only [pointOrder, hrefusal]
    rfl
  rw [hwork] at haxes hfee
  generalize afterOrder (intervalOf s) o (hearOrder o s)
    (pointOrder a (hearOrder o s).env (hearOrder o s).core) = t at haxes hfee
  generalize (hearOrder o s).core = k at *
  obtain ⟨hpfee, haz, hel⟩ := pointed_blocks hamp a k
  have hmotion (i : Axis) : motion (getAxis t.core i) = motion (getAxis (pointed s.env a k) i) :=
    (congrArg motion (getAxis_of_axes haxes i)).trans (slewClaim_motion ..)
  refine ⟨fun i => ?_, fun hb => ?_, fun hb => ?_⟩
  · have hm := hmotion i
    have hno := noFault_of_accepted hrefusal i
    simp only [motion_target hm, motion_state hm, motion_pending hm, motion_x hm, motion_v hm, motion_carry hm]
    cases i
    · simp only [getAxis_az, haz]
      exact targeted_spec hno _ _ _
    · simp only [getAxis_el, hel]
      exact targeted_spec hno _ _ _
  · rw [hfee, slewClaim, requestClaim_unbudgeted hb, hpfee]
  · have hc : k.fee.claim = (pointed s.env a k).fee.claim := by rw [hpfee]
    rw [hfee, hc]
    exact slewClaim_cases hb (pointed s.env a k)

/-! ## HOLD and BRAKE (R24, R25) -/

theorem exec_hold (o : Order) (s : State) :
    exec (.hold o) s = run (takeOrder o noArgs (onCore fun _ => holdOrder)) s := rfl
theorem exec_brake (o : Order) (s : State) :
    exec (.brake o) s = run (takeOrder o noArgs (onCore fun _ => brakeOrder)) s := rfl

theorem noArgs_nil {l : List Byte} (h : l = []) : noArgs l = some () := by simp [noArgs, h]

theorem newIdleTimer_clear (h : k.stow.state = .clear) : newIdleTimer k = some 0 := by simp [newIdleTimer, h]

theorem unpended_eq (r : AxisRec) :
    unpended r = { r with releasePending := false, target := if r.releasePending = true then .none else r.target } := by
  unfold unpended
  split
  · rfl
  · rename_i hp
    simp only [Bool.not_eq_true] at hp
    rw [← hp]

theorem unpended_heldAxis (idle : Option Nat) (r : AxisRec) : unpended (heldAxis idle r) =
    { r with
      releasePending := false
      target := if r.releasePending = true then .none else if isMoving r = true then .hold r.x else r.target
      idleTimer := if isMoving r = true then (if r.state = .active then idle else none) else r.idleTimer } := by
  rw [unpended_eq]
  unfold heldAxis
  split <;> rfl

theorem unpended_stoppedAxis (r : AxisRec) : unpended (stoppedAxis r) =
    if isMoving r = true then
      { r with
        state := .stopping, target := .none, releasePending := false, idleTimer := none,
        engaging := decide (r.v = 0), brakeTimer := if r.v = 0 then some 0 else none, brakeSeen := false }
    else { r with releasePending := false, target := if r.releasePending = true then .none else r.target } := by
  rw [unpended_eq]
  unfold stoppedAxis
  split
  · simp
  · rfl

/-- Settles O21. -/
theorem holdOrderHoldsAxes : Obligations.HoldOrderHoldsAxes := by
  intro o s ht hargs h
  refine ⟨_, (exec_hold o s).trans (run_takeOrder_onCore (fun _ => holdOrder) ht (noArgs_nil hargs)), ?_⟩
  obtain ⟨haxes, -, hfee, -⟩ := afterOrder_blocks (intervalOf s) o h (holdOrder h.env h.core)
  rw [afterOrder_code]
  by_cases hclear : h.core.stow.state = .clear
  · have hwork : holdOrder h.env h.core = (withdrawWaiting h.env
        (clearPending .el (clearPending .az (takeHold .el (takeHold .az h.core)))), .done) :=
          by simp [holdOrder, hclear]
    obtain ⟨hwaxes, -, hwclaim⟩ := withdrawWaiting_blocks h.env
      (clearPending .el (clearPending .az (takeHold .el (takeHold .az h.core))))
    rw [clearPending_fee, clearPending_fee, takeHold_fee, takeHold_fee] at hwclaim
    rw [hwork] at haxes hfee ⊢
    refine ⟨by rw [if_pos hclear], fun hn => absurd hclear hn, fun _ => ⟨?_, fun hactive => ?_, fun i => ?_⟩⟩
    · rw [hfee]
      exact withdrawWaiting_state _ _
    · rw [hfee, hwclaim, hactive]
      rfl
    · have hget : getAxis (afterOrder (intervalOf s) o h (withdrawWaiting h.env
          (clearPending .el (clearPending .az (takeHold .el (takeHold .az h.core)))), Code.done)).core i =
          getAxis (clearPending .el (clearPending .az (takeHold .el (takeHold .az h.core)))) i :=
        getAxis_of_axes (haxes.trans hwaxes) i
      show getAxis (afterOrder _ _ _ _).core i = _
      rw [hget, clearPending_both, takeHold_both, unpended_heldAxis, newIdleTimer_clear hclear]
  · have hwork : holdOrder h.env h.core = (h.core, .stowing) := by simp [holdOrder, hclear]
    rw [hwork] at haxes hfee ⊢
    exact ⟨by rw [if_neg hclear], fun _ => ⟨haxes, hfee⟩, fun hc => absurd hc hclear⟩

theorem unmoving_of_atRest {r : AxisRec} (h : atRest r = true) : isMoving r = false ∧ r.releasePending = false := by
  simp only [atRest, Bool.and_eq_true, Bool.or_eq_true, decide_eq_true_eq, Bool.not_eq_true'] at h
  obtain ⟨hs | hs, hp⟩ := h <;> exact ⟨by rw [isMoving, hs], hp⟩

/-- Settles O22. -/
theorem brakeOrderStopsAxes : Obligations.BrakeOrderStopsAxes := by
  intro o s ht hargs h
  refine ⟨_, (exec_brake o s).trans (run_takeOrder_onCore (fun _ => brakeOrder) ht (noArgs_nil hargs)), ?_⟩
  obtain ⟨haxes, -, hfee, -⟩ := afterOrder_blocks (intervalOf s) o h (brakeOrder h.env h.core)
  rw [afterOrder_code]
  cases hgo : stowUnderWay h.core.stow.state with
  | true =>
    have hwork : brakeOrder h.env h.core = (h.core, .stowing) := by simp [brakeOrder, hgo]
    rw [hwork] at haxes hfee ⊢
    exact ⟨rfl, fun _ => ⟨haxes, hfee⟩, nofun, nofun⟩
  | false =>
    by_cases hrest : atRest h.core.axes.az = true ∧ atRest h.core.axes.el = true
    · have hwork : brakeOrder h.env h.core = (h.core, .done) := by simp [brakeOrder, hgo, hrest.1, hrest.2]
      rw [hwork] at haxes hfee ⊢
      refine ⟨rfl, fun _ => ⟨haxes, hfee⟩, fun _ hn => absurd hrest hn, fun _ i => ?_⟩
      have hr : atRest (getAxis h.core i) = true := by
        cases i
        · exact hrest.1
        · exact hrest.2
      obtain ⟨hm, hp⟩ := unmoving_of_atRest hr
      have hget : getAxis (afterOrder (intervalOf s) o h (h.core, Code.done)).core i = getAxis h.core i :=
        getAxis_of_axes haxes i
      refine ⟨fun hmoving => absurd (hm.symm.trans hmoving) (by decide), fun _ => ?_⟩
      show getAxis (afterOrder _ _ _ _).core i = _
      rw [hget, ← unpended_eq, unpended, hp]
      rfl
    · have hwork : brakeOrder h.env h.core = (withdrawWaiting h.env
          (clearPending .el (clearPending .az (enterStopping .el (enterStopping .az h.core)))), .done) := by
        simp only [Bool.and_eq_true, brakeOrder, hgo, hrest]
        rfl
      obtain ⟨hwaxes, -, -⟩ := withdrawWaiting_blocks h.env
        (clearPending .el (clearPending .az (enterStopping .el (enterStopping .az h.core))))
      rw [hwork] at haxes hfee ⊢
      refine ⟨rfl, fun hc => absurd (hc.resolve_left (by decide)) hrest, fun _ _ => ?_, fun _ i => ?_⟩
      · rw [hfee]
        exact withdrawWaiting_state _ _
      · have hget : getAxis (afterOrder (intervalOf s) o h (withdrawWaiting h.env
            (clearPending .el (clearPending .az (enterStopping .el (enterStopping .az h.core)))), Code.done)).core i =
            getAxis (clearPending .el (clearPending .az (enterStopping .el (enterStopping .az h.core)))) i := by
          exact getAxis_of_axes (haxes.trans hwaxes) i
        show (_ → getAxis (afterOrder _ _ _ _).core i = _) ∧ (_ → getAxis (afterOrder _ _ _ _).core i = _)
        rw [hget, clearPending_both, enterStopping_both, unpended_stoppedAxis]
        exact ⟨fun hm => if_pos hm, fun hm => if_neg (by simp [hm])⟩

end Sys2Proof.Machine
end

section
/-! PROOFS. The stow unit's state: what a change of it, a computation and a demand make of it (R49 to R52), and the orders STOW, UNSTOW, QUIET and WAKE (R63 to R68). -/

namespace Sys2Proof.Machine

variable {e : Env} {k k' : Core}

/-! ## The stow state under the operations of the blocks -/

theorem syncStowFailed_state (k : Core) : (syncStowFailed k).stow.state = k.stow.state := by
  unfold syncStowFailed syncCond
  split
  · exact raiseCond_state ..
  · rw [endCond_stow]

@[simp] theorem setStow_state (n : StowState) (k : Core) : (setStow n k).stow.state = n := by
  unfold setStow
  split
  · assumption
  · rw [syncStowFailed_state]
    simp only []
    split
    · exact wakeEvent_state _
    · rfl

theorem setStow_same (h : k.stow.state = n) : setStow n k = k := by simp [setStow, h]

/-- The stow state stands, or goes from DEMANDED to MOVING as the claim is admitted (R52). -/
def StowRuns (k k' : Core) : Prop :=
  k'.stow.state = k.stow.state ∨ (k.stow.state = .demanded ∧ k'.stow.state = .moving)

theorem StowRuns.refl (k : Core) : StowRuns k k := .inl rfl

theorem StowRuns.of_eq (h : k'.stow.state = k.stow.state) : StowRuns k k' := .inl h

theorem StowRuns.trans {a b c : Core} (h : StowRuns a b) (g : StowRuns b c) : StowRuns a c := by
  obtain h | ⟨hd, hm⟩ := h
  · obtain g | ⟨gd, gm⟩ := g
    · exact .inl (g.trans h)
    · exact .inr ⟨h.symm.trans gd, gm⟩
  · obtain g | ⟨gd, -⟩ := g
    · exact .inr ⟨hd, g.trans hm⟩
    · exact absurd (hm.symm.trans gd) (by decide)

theorem admitClaim_stow (f : Bool) (k : Core) : StowRuns k (admitClaim f k) := by
  unfold admitClaim
  simp only []
  split
  · rename_i h
    exact .inr ⟨h.2, setStow_state ..⟩
  · split
    · exact .of_eq (raiseCond_state ..)
    · exact .refl _

theorem overcommitTest_stow (e : Env) (k : Core) : (overcommitTest e k).1.stow.state = k.stow.state := by
  unfold overcommitTest
  split
  · simp only []
    split
    · exact raiseCond_state .overload k
    · exact raiseCond_state .overload k
  · exact congrArg StowUnit.state (endCond_stow .overload k)

theorem computePass_stow (e : Env) (k : Core) : StowRuns k (computePass e k).1 := by
  have hover : StowRuns k (overcommitTest e (withFigures e k)).1 := .of_eq (overcommitTest_stow e (withFigures e k))
  unfold computePass
  simp only []
  split
  · exact hover.trans (admitClaim_stow _ (handAllowance e _ _))
  · exact hover

theorem computeTimes_stow (e : Env) : ∀ (n : Nat) (k : Core), StowRuns k (computeTimes e n k) := by
  intro n
  induction n with
  | zero => exact fun k => .refl k
  | succ n ih =>
    intro k
    unfold computeTimes
    simp only []
    split
    · exact (computePass_stow e k).trans (ih _)
    · exact computePass_stow e k

theorem compute_stow (e : Env) (k : Core) : StowRuns k (compute e k) := by
  unfold compute
  split
  · exact computeTimes_stow e 3 k
  · exact .refl _

theorem compute_stow_of {u : Core} (h : k.stow.state = u.stow.state) : StowRuns u (compute e k) :=
  (StowRuns.of_eq h).trans (compute_stow e k)

theorem evaluateHeat_stow (e : Env) (k : Core) : StowRuns k (evaluateHeat e k) := by
  unfold evaluateHeat
  split
  · simp only []
    split
    · exact .refl _
    · exact compute_stow_of rfl
  · exact .refl _

theorem requestClaim_stow (kind : ClaimKind) (az el : Bool) (k : Core) : StowRuns k (requestClaim e kind az el k) := by
  unfold requestClaim
  split
  · exact .refl _
  split
  · split
    · exact compute_stow_of rfl
    · exact compute_stow_of rfl
    · unfold convertClaim
      split
      · exact .refl _
      · exact compute_stow_of rfl
  · obtain ⟨-, hstow, -⟩ := withdrawWaiting_blocks e k
    exact .of_eq (congrArg StowUnit.state hstow)

/-! ## Going to stow (R51, R52) -/

theorem giveTarget_stow (h : e.inputs.ampFault = false) (i : Axis) (t : Target) (k : Core) :
    (giveTarget e i t k).stow = k.stow := by
  rw [giveTarget_eq h, putAxis_stow, endRange_stow]

theorem stowAzimuth_stow (k : Core) : (stowAzimuth k).stow = k.stow := by simp [stowAzimuth]

theorem stowElevation_stow (h : e.inputs.ampFault = false) (k : Core) : (stowElevation e k).stow = k.stow := by
  unfold stowElevation
  split
  · exact clearPending_stow ..
  · exact giveTarget_stow h ..

theorem stowClaim_state (h : k.stow.state = .demanded) :
    (stowClaim e k).stow.state = .demanded ∨ (stowClaim e k).stow.state = .moving := by
  unfold stowClaim
  simp only []
  split
  · exact .inr (setStow_state ..)
  · obtain hs | ⟨-, hm⟩ := requestClaim_stow (e := e) .stow (mustAccelerate e k .az) (mustAccelerate e k .el) k
    · exact .inl (hs.trans h)
    · exact .inr hm

/-- No amplifier fault asserted, a demand leaves DEMANDED or MOVING. -/
theorem enterDemanded_state (h : e.inputs.ampFault = false) (k : Core) :
    (enterDemanded e k).stow.state = .demanded ∨ (enterDemanded e k).stow.state = .moving := by
  have hs : (stowElevation e (stowAzimuth (setStow .demanded k))).stow.state = .demanded := by
    rw [stowElevation_stow h, stowAzimuth_stow, setStow_state]
  unfold enterDemanded
  simp only []
  rw [if_pos hs]
  exact stowClaim_state hs

/-- A demand by the three cases of R51. -/
theorem demandStow_state (e : Env) (k : Core) :
    (blocking e.list = true → (demandStow e k).stow.state = .blocked)
      ∧ (blocking e.list = false → someFault k = true → (demandStow e k).stow.state = .failed)
      ∧ (blocking e.list = false → someFault k = false → e.inputs.ampFault = false →
          (demandStow e k).stow.state = .demanded ∨ (demandStow e k).stow.state = .moving) := by
  refine ⟨fun hb => ?_, fun hb hf => ?_, fun hb hf ha => ?_⟩
  · rw [demandStow, if_pos hb, setStow_state]
  · rw [demandStow, if_neg (by simp [hb]), if_pos hf, setStow_state]
  · rw [demandStow, if_neg (by simp [hb]), if_neg (by simp [hf])]
    exact enterDemanded_state ha k

/-! ## STOW (R63) -/

theorem exec_stow (o : Order) (s : State) :
    exec (.stow o) s = run (takeOrder o noArgs (onCore fun _ => stowOrder)) s := rfl

theorem configured_of_taken {o : Order} {s : State} (h : Taken o s) : s.env.setup.configured = true := by
  obtain ⟨-, ht⟩ := h
  unfold orderTaken at ht
  split at ht
  · exact absurd ht (by decide)
  · simp only [Bool.and_eq_true] at ht
    obtain ⟨⟨-, hc⟩, -⟩ := ht
    exact hc

/-- A changed cause set after the configuration is taken by the stow state. -/
theorem updateCauses_changed {c : Causes} (hc : ¬c = k.stow.causes) (hconf : e.setup.configured = true) :
    updateCauses e c k = takeCauses e k.stow.causes { k with stow := withCauses c k.stow } := by
  simp [updateCauses, hc, hconf]

theorem withConsole_same {c : Causes} (h : c.console = true) : { c with console := true } = c := by rw [← h]

theorem withConsole_ne {c : Causes} (h : c.console = false) : ¬{ c with console := true } = c := fun he =>
  absurd ((congrArg Causes.console he : true = c.console).trans h) Bool.noConfusion

theorem withConsole_nonempty (c : Causes) : ¬{ c with console := true } = noCauses := fun he =>
  absurd (congrArg Causes.console he : true = false) Bool.noConfusion

/-- The state after CONSOLE has joined the causes, by the state before (R51, R57, R63). -/
theorem stowOrder_state (hconf : e.setup.configured = true) (k : Core) :
    let u := k.stow
    let t := (stowOrder e k).1
    (u.causes.console = true ∨ (¬u.state = .clear ∧ ¬u.state = .releasing) → t.stow.state = u.state)
      ∧ (u.causes.console = false → u.state = .releasing → t.stow.state = .pinning)
      ∧ (u.causes.console = false → u.state = .clear →
          t = demandStow e { k with stow := withCauses { u.causes with console := true } u }) := by
  intro u t
  have hold (h : u.causes.console = true) : t = k := by
    show updateCauses e { k.stow.causes with console := true } k = k
    rw [withConsole_same h, updateCauses, if_pos rfl]
  have hnew (h : u.causes.console = false) : t = takeCauses e u.causes
      { k with stow := withCauses { u.causes with console := true } u } := updateCauses_changed (withConsole_ne h) hconf
  have hne := withConsole_nonempty u.causes
  refine ⟨fun h => ?_, fun hc hs => ?_, fun hc hs => ?_⟩
  · cases hc : u.causes.console with
    | true => rw [hold hc]
    | false =>
      obtain ⟨hclear, hrel⟩ := h.resolve_left (by simp [hc])
      rw [hnew hc]
      have hstate : (withCauses { u.causes with console := true } u).state = u.state := rfl
      have hcauses : (withCauses { u.causes with console := true } u).causes = { u.causes with console := true } := rfl
      unfold takeCauses
      simp only [hstate, hcauses, hne, false_and, if_false]
      split
      · exact absurd ‹_› hclear
      · exact absurd ‹_› hrel
      · rfl
      · rfl
  · rw [hnew hc]
    have hadds : addsCause u.causes { u.causes with console := true } = true := by simp [addsCause, hc]
    have hstate : (withCauses { u.causes with console := true } u).state = .releasing := hs
    have hcauses : (withCauses { u.causes with console := true } u).causes = { u.causes with console := true } := rfl
    simp only [takeCauses, hstate, hcauses, hadds, if_true, setStow_state]
  · rw [hnew hc]
    have hstate : (withCauses { u.causes with console := true } u).state = .clear := hs
    have hcauses : (withCauses { u.causes with console := true } u).causes = { u.causes with console := true } := rfl
    simp only [takeCauses, hstate, hcauses, hne, if_false]

/-- Settles O23: one update of the causes, and what each stow state makes of it. -/
theorem stowOrderAddsConsole : Obligations.StowOrderAddsConsole := by
  intro o s ht hargs h
  obtain ⟨henv, -⟩ := hearOrder_parts o s
  have hconf : h.env.setup.configured = true := by rw [show h.env = s.env from henv]; exact configured_of_taken ht
  refine ⟨_, (exec_stow o s).trans (run_takeOrder_onCore (fun _ => stowOrder) ht (noArgs_nil hargs)), ?_⟩
  obtain ⟨-, hstow, -⟩ := afterOrder_blocks (intervalOf s) o h (stowOrder h.env h.core)
  have hconsole : (afterOrder (intervalOf s) o h (stowOrder h.env h.core)).store.console =
      (afterOrder (intervalOf s) o h (stowOrder h.env h.core)).core.stow.causes.console := by
    obtain ⟨-, -, -, -, -, -, hc⟩ := settle_store (intervalOf s)
      (giveResult o (stowOrder h.env h.core).2 { h with core := (stowOrder h.env h.core).1 })
    exact hc.trans (congrArg (fun u : StowUnit => u.causes.console) (settle_stow ..).symm)
  have hcauses : (stowOrder h.env h.core).1.stow.causes = { h.core.stow.causes with console := true } :=
    updateCauses_causes ..
  obtain ⟨hstands, hreleasing, hclear⟩ := stowOrder_state hconf h.core
  refine ⟨rfl, ?_, ?_, fun hc => ?_, fun hc hs => ?_, fun hc hs => ?_⟩
  · rw [hstow, hcauses]
  · rw [hconsole, hstow, hcauses]
  · rw [hstow]
    exact hstands hc
  · rw [hstow]
    exact hreleasing hc hs
  · rw [hstow, hclear hc hs, ← show h.env = s.env from henv]
    exact demandStow_state ..

/-! ## UNSTOW (R63, R64) -/

theorem exec_unstow (o : Order) (s : State) :
    exec (.unstow o) s = run (takeOrder o noArgs (onCore fun _ => unstowOrder)) s := rfl

theorem wakeEvent_hold (k : Core) : (wakeEvent k).stow.holdTimer = k.stow.holdTimer := by
  unfold wakeEvent; split <;> rfl

theorem wakeEvent_park (k : Core) :
    (wakeEvent k).stow.park = if k.stow.park = .parked then .waking else k.stow.park := by
  unfold wakeEvent
  split <;> rfl

theorem wakeEvent_fault (k : Core) : someFault (wakeEvent k) = someFault k := by
  unfold wakeEvent
  split <;> rfl

theorem wakeEvent_notParked (k : Core) : ¬(wakeEvent k).stow.park = .parked := by
  rw [wakeEvent_park]
  split
  · decide
  · assumption

/-- The tests of R63 on the station that an UNSTOW has woken. -/
theorem unstowTest_wakeEvent (e : Env) (k : Core) : unstowTest e (wakeEvent k) =
    (if k.stow.state = .clear then .done
      else if ¬{ k.stow.causes with console := false } = noCauses then .cause
      else if k.stow.holdTimer.isSome = true then .holding
      else if k.stow.state = .stowed ∧ blocking e.list = true then .locked
      else if (k.stow.state = .stowed ∨ k.stow.state = .pinning) ∧ someFault k = true then .fault
      else .done) := by
  simp only [unstowTest, wakeEvent_state, wakeEvent_causes, wakeEvent_hold, wakeEvent_fault, running, Bool.and_eq_true,
    Bool.or_eq_true, decide_eq_true_eq, Bool.not_eq_true', decide_eq_false_iff_not]

theorem enterReleasing_state (h : e.inputs.ampFault = false) (k : Core) :
    (enterReleasing e k).stow.state = .releasing := by
  have hdrive (k : Core) : (driveInTest k).stow.state = k.stow.state := by
    unfold driveInTest
    split <;> rfl
  unfold enterReleasing
  simp only []
  rw [hdrive, giveTarget_stow h, giveTarget_stow h, setStow_state]

theorem abandonStow_state (e : Env) (k : Core) : (abandonStow e k).stow.state = .clear := by
  obtain ⟨-, hstow, -⟩ := withdrawWaiting_blocks e
    (clearPending .el (clearPending .az (takeHold .el (takeHold .az (setStow .clear k)))))
  unfold abandonStow
  rw [hstow]
  simp

theorem Same.actUnstow {k0 : Core} (h : Same false k0 k) : Same false k0 (actUnstow e k) := by
  have abandoned : Same false k0 (abandonStow e k) :=
    ((((h.setStow .clear).takeHold .az).takeHold .el).clearPending .az).clearPending .el |>.withdrawWaiting
  unfold Machine.actUnstow
  split
  · exact abandoned
  · exact abandoned
  · exact h.enterReleasing
  · split
    · exact h.enterReleasing
    · exact h.stowUnit _ rfl rfl rfl
  · split
    · exact h.setStow _
    · exact h
  · exact h

/-- What an accepted UNSTOW does with the stow state, CONSOLE gone and no cause left (R64). -/
theorem actUnstow_state (e : Env) (k : Core) (hc : k.stow.causes = noCauses) :
    (k.stow.state = .demanded ∨ k.stow.state = .moving → (actUnstow e k).stow.state = .clear)
      ∧ (k.stow.state = .pinning ∨ (k.stow.state = .stowed ∧ k.stow.park = .run) → e.inputs.ampFault = false →
          (actUnstow e k).stow.state = .releasing)
      ∧ (k.stow.state = .stowed → ¬k.stow.park = .run →
          (actUnstow e k).stow.state = .stowed ∧ (actUnstow e k).stow.pendingRelease = true)
      ∧ (k.stow.state = .releasing ∨ k.stow.state = .failed → (actUnstow e k).stow.state = k.stow.state)
      ∧ (k.stow.state = .blocked → (actUnstow e k).stow.state = (if pinIsIn e = true then .clear else .blocked)) := by
  refine ⟨fun h => ?_, fun h ha => ?_, fun h hp => ?_, fun h => ?_, fun h => ?_⟩
  · obtain h | h := h <;> simp only [actUnstow, h] <;> exact abandonStow_state ..
  · obtain h | ⟨h, hp⟩ := h
    · simp only [actUnstow, h]
      exact enterReleasing_state ha _
    · simp only [actUnstow, h, hp, if_true]
      exact enterReleasing_state ha _
  · simp only [actUnstow, h, hp, if_false]
    exact ⟨trivial, trivial⟩
  · obtain h | h := h <;> simp only [actUnstow, h]
  · simp only [actUnstow, h, hc, true_and]
    split
    · exact setStow_state ..
    · exact h

/-- UNSTOW on a core: the tests of R63, the waking of R66 and the work of R64. -/
theorem unstowOrder_does (e : Env) (k : Core) :
    let u := k.stow
    let left := { u.causes with console := false }
    let r := unstowOrder e k
    r.2 =
        (if u.state = .clear then .done
          else if ¬left = noCauses then .cause
          else if u.holdTimer.isSome = true then .holding
          else if u.state = .stowed ∧ blocking e.list = true then .locked
          else if (u.state = .stowed ∨ u.state = .pinning) ∧ someFault k = true then .fault
          else .done)
      ∧ r.1.stow.park = (if u.park = .parked then .waking else u.park)
      ∧ (¬r.2 = .done ∨ u.state = .clear → r.1.stow.state = u.state ∧ r.1.stow.causes = u.causes)
      ∧ (r.2 = .done → ¬u.state = .clear →
          r.1.stow.causes = left
            ∧ (u.state = .demanded ∨ u.state = .moving → r.1.stow.state = .clear)
            ∧ (u.state = .pinning ∨ (u.state = .stowed ∧ u.park = .run) → e.inputs.ampFault = false →
                r.1.stow.state = .releasing)
            ∧ (u.state = .stowed → ¬u.park = .run → r.1.stow.state = .stowed ∧ r.1.stow.pendingRelease = true)
            ∧ (u.state = .releasing ∨ u.state = .failed → r.1.stow.state = u.state)
            ∧ (u.state = .blocked → r.1.stow.state = (if pinIsIn e = true then .clear else .blocked))) := by
  intro u left r
  have htest := unstowTest_wakeEvent e k
  by_cases hact : unstowTest e (wakeEvent k) = .done ∧ ¬(wakeEvent k).stow.state = .clear
  · have hwork : r = (actUnstow e (dropConsole (wakeEvent k)), .done) := by
      simp only [r, unstowOrder]
      rw [if_pos hact]
    obtain ⟨hdone, hclear⟩ := hact
    rw [wakeEvent_state] at hclear
    have hsame : Same false (dropConsole (wakeEvent k)) (actUnstow e (dropConsole (wakeEvent k))) :=
      (Same.refl _).actUnstow
    have hleft : (dropConsole (wakeEvent k)).stow.causes = left := by
      show { (wakeEvent k).stow.causes with console := false } = left
      rw [wakeEvent_causes]
    have hnone : left = noCauses := by
      rw [hdone, if_neg hclear] at htest
      by_contra hne
      rw [if_pos hne] at htest
      exact absurd htest (by decide)
    have hpark : (dropConsole (wakeEvent k)).stow.park = (if u.park = .parked then .waking else u.park) :=
      wakeEvent_park _
    have hstate : (dropConsole (wakeEvent k)).stow.state = u.state := wakeEvent_state _
    obtain ⟨hgone, hrelease, hpending, hstands, hblocked⟩ := actUnstow_state e _ (hleft.trans hnone)
    rw [hstate] at hgone hrelease hpending hstands hblocked
    rw [hwork]
    refine ⟨hdone.symm.trans htest, ?_, fun hc => ?_, fun _ _ => ⟨hsame.causes.trans hleft, hgone, fun hc ha => ?_,
      fun hs hp => hpending hs ?_, hstands, hblocked⟩⟩
    · cases hp : u.park with
      | run => rw [hp] at hpark; simpa using hsame.park hpark
      | parked => rw [hp] at hpark; simpa using hsame.awake hpark
      | waking => rw [hp] at hpark; simpa using hsame.awake hpark
    · exact hc.elim (absurd rfl) hclear.elim
    · refine hrelease (hc.imp_right fun ⟨hs, hp⟩ => ⟨hs, ?_⟩) ha
      rw [hpark, hp]
      rfl
    · rw [hpark]
      split
      · decide
      · exact hp
  · have hwork : r = (wakeEvent k, unstowTest e (wakeEvent k)) := by
      simp only [r, unstowOrder]
      rw [if_neg hact]
    rw [hwork]
    refine ⟨htest, wakeEvent_park _, fun _ => ⟨wakeEvent_state _, wakeEvent_causes _⟩, fun hd hc => ?_⟩
    exact absurd ⟨hd, by rw [wakeEvent_state]; exact hc⟩ hact

/-- Settles O24. -/
theorem unstowOrderTests : Obligations.UnstowOrderTests := by
  intro o s ht hargs h u left
  obtain ⟨henv, -⟩ := hearOrder_parts o s
  refine ⟨_, (exec_unstow o s).trans (run_takeOrder_onCore (fun _ => unstowOrder) ht (noArgs_nil hargs)), ?_⟩
  obtain ⟨-, hstow, -⟩ := afterOrder_blocks (intervalOf s) o h (unstowOrder h.env h.core)
  have hdoes := unstowOrder_does h.env h.core
  rw [show h.env = s.env from henv] at hdoes hstow
  show (unstowOrder (hearOrder o s).env h.core).2 = _ ∧ _
  rw [henv, hstow]
  exact hdoes

/-! ## QUIET and WAKE (R65, R66, R68) -/

theorem exec_quiet (o : Order) (s : State) :
    exec (.quiet o) s = run (takeOrder o noArgs (onCore fun _ => quietOrder)) s := rfl
theorem exec_wake (o : Order) (s : State) :
    exec (.wake o) s = run (takeOrder o noArgs (onCore fun _ _ => wakeOrder)) s := rfl

theorem afterOrder_encoderPower (old : Nat) (o : Order) (h : State) (r : Core × Code) :
    (afterOrder old o h r).outputs.encoderPower = !decide (r.1.stow.park = .parked) := by
  obtain ⟨-, hstow, -⟩ := afterOrder_blocks old o h r
  rw [← hstow]
  show (settle old (giveResult o r.2 { h with core := r.1 })).outputs.encoderPower = _
  rw [settle_outputs]
  rfl

theorem mayPark_iff (e : Env) (k : Core) : mayPark e k = true ↔
    posture e k = .stowed ∧ k.axes.az.state = .braked ∧ k.axes.el.state = .braked := by
  simp [mayPark, and_assoc]

/-- Settles O25. -/
theorem quietAndWakeOrders : Obligations.QuietAndWakeOrders := by
  intro o s ht hargs h
  refine ⟨⟨_, (exec_quiet o s).trans (run_takeOrder_onCore (fun _ => quietOrder) ht (noArgs_nil hargs)), ?_⟩,
    ⟨_, (exec_wake o s).trans (run_takeOrder_onCore (fun _ _ => wakeOrder) ht (noArgs_nil hargs)), ?_⟩⟩
  · obtain ⟨haxes, hstow, -⟩ := afterOrder_blocks (intervalOf s) o h (quietOrder h.env h.core)
    rw [afterOrder_code, afterOrder_encoderPower, hstow, haxes, ← mayPark_iff]
    unfold quietOrder
    split
    · exact ⟨fun _ => ⟨rfl, rfl, rfl⟩, fun hn => absurd ‹_› hn, rfl⟩
    · exact ⟨fun hp => absurd hp ‹_›, fun _ => ⟨rfl, rfl⟩, rfl⟩
  · obtain ⟨haxes, hstow, hfee, hheat, hcond⟩ := afterOrder_blocks (intervalOf s) o h (wakeOrder h.core)
    rw [afterOrder_code, afterOrder_encoderPower, afterOrder_env, hstow, haxes, hfee, hheat, hcond]
    refine ⟨rfl, fun hp => ?_, fun hp => ?_⟩
    · have hwake : (wakeOrder h.core).1.stow = { h.core.stow with park := .waking, settleTimer := some 0 } := by
        unfold wakeOrder wakeEvent
        rw [if_pos hp]
      rw [hwake]
      exact ⟨rfl, rfl⟩
    · have hwake : (wakeOrder h.core).1 = h.core := wakeEvent_awake _ hp
      rw [hwake]
      exact ⟨rfl, rfl, rfl, rfl, rfl, rfl⟩

end Sys2Proof.Machine
end

section
/-! PROOFS. The lockout list's orders: what a placed DRIVE or ALL record makes of axes, claim and stow (R26, R58), and UNLOCK and RELEASE (R75, R76). -/

namespace Sys2Proof.Machine

variable {e : Env} {k : Core}

/-! ## A blocking record arrives (R26, R58, R70) -/

theorem blockStow_state (k : Core) :
    (blockStow k).stow.state = if stowUnderWay k.stow.state = true then .blocked else k.stow.state := by
  unfold blockStow
  split <;> simp_all [stowUnderWay]

theorem blockStow_fee (k : Core) : (blockStow k).fee = k.fee := by
  unfold blockStow
  split <;> simp only [setStow_fee]

/-- No release begins while a blocking record is held. -/
theorem tryReleases_blocked (h : blocking e.list = true) (k : Core) : tryReleases e k = k := by
  have hno (i : Axis) (k : Core) : tryRelease e i k = k := by
    refine if_neg fun ⟨_, _, hfree⟩ => ?_
    exact absurd (not_blocking_of_free h hfree) (by decide)
  rw [tryReleases, hno, hno]

theorem evaluateHeat_noClaim (h : k.fee.claim.state = .none) : (evaluateHeat e k).fee.claim.state = .none := by
  unfold evaluateHeat
  split
  · simp only []
    split
    · exact h
    · exact (compute_runs_of rfl).none h
  · exact h

/-- What stands once a blocking record has reached the blocks: `h` before it. -/
structure Halted (h k : Core) : Prop where
  claim : k.fee.claim.state = .none
  axis : ∀ i, motion (getAxis k i) = motion (unpended (stoppedAxis (getAxis h i)))
  stow : k.stow.state = if stowUnderWay h.stow.state = true then .blocked else h.stow.state

theorem stopForLockout_blocks (e : Env) (k : Core) :
    (∀ i, getAxis (stopForLockout e k) i = unpended (stoppedAxis (getAxis k i))) ∧ (stopForLockout e k).stow = k.stow
      ∧ (stopForLockout e k).fee.claim.state = .none := by
  obtain ⟨haxes, hstow, hclaim⟩ := withdrawClaim_blocks e
    (clearPending .el (clearPending .az (enterStopping .el (enterStopping .az k))))
  refine ⟨fun i => ?_, hstow.trans ?_, hclaim⟩
  · rw [← enterStopping_both, ← clearPending_both]
    exact getAxis_of_axes haxes i
  · rw [clearPending_stow, clearPending_stow, enterStopping_stow, enterStopping_stow]

theorem stopForLockout_halted (e : Env) (h : Core) : Halted h (blockStow (stopForLockout e h)) := by
  obtain ⟨haxis, hstow, hclaim⟩ := stopForLockout_blocks e h
  refine ⟨?_, fun i => ?_, ?_⟩
  · rw [blockStow_fee]
    exact hclaim
  · rw [← haxis i]
    exact (Same.blockStow (Same.refl _)).axis i
  · rw [blockStow_state, hstow]

theorem Halted.same {h k' : Core} (hk : Halted h k) (hs : Same true k k') (hc : k'.fee.claim.state = .none)
    (hst : k'.stow.state = k.stow.state) : Halted h k' :=
  ⟨hc, fun i => (hs.axis i).trans (hk.axis i), hst.trans hk.stow⟩

theorem Halted.evaluateHeat {h : Core} (hk : Halted h k) : Halted h (evaluateHeat e k) := by
  refine hk.same (Same.evaluateHeat (Same.refl k)) (evaluateHeat_noClaim hk.claim) ?_
  refine (evaluateHeat_stow e k).resolve_right fun ⟨hd, _⟩ => ?_
  rw [hk.stow] at hd
  split at hd
  · exact absurd hd (by decide)
  · rename_i hn
    exact hn (by rw [hd]; rfl)

theorem handList_halted {old : List Lock} (hb : blocking e.list = true) (ha : arrives isBlocking old e.list = true)
    (hp : arrives isPointLock old e.list = false) (k : Core) : Halted k (handList old e k) := by
  have hk := stopForLockout_halted e k
  have hheat : Halted k (evaluateHeat e (wakeEvent (blockStow (stopForLockout e k)))) :=
    (hk.same (Same.wakeEvent (Same.refl _)) (by rw [wakeEvent_fee]; exact hk.claim) (wakeEvent_state _)).evaluateHeat
  unfold handList
  simp only [ha, hp, hb, if_true, Bool.false_eq_true, false_and, if_false]
  rw [tryReleases_blocked hb]
  split
  · exact hheat
  · exact hheat.same (Same.request .urgent (Same.refl _)) hheat.claim rfl

/-- Settles O27: the new record alone arrives, and its arrival halts the blocks. -/
theorem blockingLockStopsTheDish : Obligations.BlockingLockStopsTheDish := by
  intro o k s ht hk hkind hnone hroom hfree h
  obtain ⟨henv, -, hstore, -⟩ := hearOrder_parts o s
  obtain ⟨hlive, htaken⟩ := ht
  have hwork : lockOrder k o.console.toNat h = (changeList (h.env.list ++ [newLock k (.console o.console.toNat)])
      [{ kind := k, origin := .console o.console.toNat }] h, .done) := by
    rw [← henv] at hnone
    rw [← henv, ← hstore] at hroom
    rw [← hstore] at hfree
    exact lockOrder_placed hnone hroom hfree
  refine ⟨settle (intervalOf s) (giveResult o (lockOrder k o.console.toNat h).2
    (lockOrder k o.console.toNat h).1), ?_, ?_⟩
  · rw [exec_lock, run_live _ s hlive, takeOrder_good htaken hk]
  have hnew : ¬newLock k (.console o.console.toNat) ∈ s.env.list := fun hm => by
    have := List.find?_eq_none.mp hnone _ hm
    simp [identOf] at this
  have hlist : h.env.list = s.env.list := congrArg Env.list henv
  have hhalted : Halted h.core (lockOrder k o.console.toNat h).1.core := by
    rw [hwork, changeList, if_neg (by simp)]
    refine handList_halted ?_ ?_ ?_ _
    · simp only [blocking, List.any_append, List.any_cons, isBlocking, newLock]
      obtain rfl | rfl := hkind <;> simp
    · simp only [arrives, List.any_append, List.any_cons, isBlocking, hlist]
      obtain rfl | rfl := hkind <;> simp [hnew] <;> simp [newLock]
    · simp only [arrives, List.any_append, List.any_cons, isPointLock, Bool.or_eq_false_iff, List.any_eq_false]
      refine ⟨fun l hl => by simp [hl], ?_, nofun⟩
      obtain rfl | rfl := hkind <;> rfl
  obtain ⟨haxes, hstow, -, hfee, -⟩ := giveResult_core o (lockOrder k o.console.toNat h).2
    (lockOrder k o.console.toNat h).1
  rw [settle_fee, settle_stow, hfee, hstow]
  refine ⟨hhalted.claim, fun i => ?_, hhalted.stow⟩
  have hget : getAxis (settle (intervalOf s) (giveResult o (lockOrder k o.console.toNat h).2
      (lockOrder k o.console.toNat h).1)).core i = getAxis (lockOrder k o.console.toNat h).1.core i :=
    getAxis_of_axes ((settle_axes ..).trans haxes) i
  rw [hget]
  have hm := hhalted.axis i
  have hstate := (motion_state hm).trans (unpended_state _)
  refine ⟨?_, (motion_pending hm).trans (unpended_pending _), fun hmoving => hstate.trans ?_,
    fun hrest => hstate.trans ?_⟩
  · exact (isMoving_of_state hstate).trans (stoppedAxis_atRest _)
  · rw [stoppedAxis, if_pos hmoving]
  · rw [stoppedAxis, if_neg (by rw [hrest]; decide)]

/-! ## UNLOCK (R75) and RELEASE (R76) -/

theorem exec_unlock (o : Order) (s : State) :
    exec (.unlock o) s = run (takeOrder o lockKindArg fun k => unlockOrder k o.console.toNat) s := rfl
theorem exec_release (o : Order) (s : State) :
    exec (.release o) s = run (takeOrder o noArgs fun _ => releaseOrder) s := rfl

/-- UNLOCK's three answers and the list each leaves. -/
theorem unlockOrder_cases (k : LockKind) (c : Nat) (s : State) :
    let ts := unlockTargets k c s.env.list
    let r := unlockOrder k c s
    (ts = [] → r.1.env.list = s.env.list ∧ r.2 = (if otherHolds k c s.env.list = true then .owner else .done))
      ∧ (¬ts = [] → queueRefuses (ts.map lockIdent) s.store = true → r.1.env.list = s.env.list ∧ r.2 = .busy)
      ∧ (¬ts = [] → queueRefuses (ts.map lockIdent) s.store = false → r.2 = .done
          ∧ ∀ l, l ∈ r.1.env.list ↔ l ∈ s.env.list ∧ ¬l ∈ ts) := by
  intro ts r
  refine ⟨fun h => ?_, fun h hq => ?_, fun h hq => ?_⟩
  · have hr : r = (s, if otherHolds k c s.env.list = true then .owner else .done) := if_pos h
    rw [hr]
    exact ⟨rfl, rfl⟩
  · have hr : r = (s, .busy) := (if_neg h).trans (if_pos hq)
    rw [hr]
    exact ⟨rfl, rfl⟩
  · have hr : r = (changeList (s.env.list.filter fun l => !ts.contains l) (ts.map markOf) s, .done) :=
      (if_neg h).trans (if_neg (by rw [hq]; decide))
    rw [hr]
    refine ⟨rfl, fun l => ?_⟩
    rw [changeList_list, List.mem_filter]
    simp

theorem lockIdent_system_iff (l : Lock) : lockIdent l = .system ↔ l.origin = .system := by
  cases h : l.origin <;> simp [lockIdent, identOf, h]

/-- RELEASE's three answers and the list each leaves. -/
theorem releaseOrder_cases (s : State) :
    let r := releaseOrder s
    (systemRecord s.env.list = none → r.2 = .done ∧ r.1.env.list = s.env.list)
      ∧ (∀ l, systemRecord s.env.list = some l → l.kind = .all → r.2 = .state ∧ r.1.env.list = s.env.list)
      ∧ (∀ l, systemRecord s.env.list = some l → ¬l.kind = .all → r.2 = .done
          ∧ ∀ x, x ∈ r.1.env.list ↔ x ∈ s.env.list ∧ ¬x.origin = .system) := by
  intro r
  refine ⟨fun h => ?_, fun l h hk => ?_, fun l h hk => ?_⟩
  · have hr : r = (s, .done) := by simp [r, releaseOrder, h]
    rw [hr]
    exact ⟨rfl, rfl⟩
  · have hr : r = (s, .state) := by simp [r, releaseOrder, h, hk]
    rw [hr]
    exact ⟨rfl, rfl⟩
  · have hr : r = (removeIdent .system s, .done) := by simp [r, releaseOrder, h, hk]
    rw [hr]
    refine ⟨rfl, fun x => ?_⟩
    rw [removeIdent_list, dropIdent, List.mem_filter]
    simp [lockIdent_system_iff]

/-- Settles O28: hearing the order leaves list and store, and its owner answers by the cases of R75 and R76. -/
theorem unlockAndReleaseOrders : Obligations.UnlockAndReleaseOrders := by
  intro o s ht
  obtain ⟨henv, -, hstore, -⟩ := hearOrder_parts o s
  refine ⟨fun k hk => ?_, fun hargs => ?_⟩
  · obtain ⟨t, hrun, hcode, htenv, -⟩ := takeOrder_answers (fun k => unlockOrder k o.console.toNat) ht hk
    refine ⟨t, (exec_unlock o s).trans hrun, ?_⟩
    rw [hcode, htenv, ← henv, ← hstore]
    exact unlockOrder_cases k o.console.toNat (hearOrder o s)
  · obtain ⟨t, hrun, hcode, htenv, -⟩ := takeOrder_answers (fun _ => releaseOrder) ht (noArgs_nil hargs)
    refine ⟨t, (exec_release o s).trans hrun, ?_⟩
    rw [hcode, htenv, ← henv]
    exact releaseOrder_cases (hearOrder o s)

end Sys2Proof.Machine
end

section
/-! PROOFS. The heater unit under computations (R95, R96), and the orders HEAT, CLEAR and PROVE (R92, R175, R176). -/

namespace Sys2Proof.Machine

variable {e : Env} {k : Core}

/-! ## The heater unit under the account's computations -/

theorem overcommitTest_heat (e : Env) (k : Core) : (overcommitTest e k).1.heat = k.heat := by
  unfold overcommitTest
  split
  · simp only []
    split
    · exact raiseCond_heat .overload k
    · exact raiseCond_heat .overload k
  · exact endCond_heat ..

theorem syncStowFailed_heat (k : Core) : (syncStowFailed k).heat = k.heat := by
  unfold syncStowFailed syncCond
  split
  · exact raiseCond_heat ..
  · exact endCond_heat ..

theorem setStow_heat (n : StowState) (k : Core) : (setStow n k).heat = k.heat := by
  unfold setStow
  split
  · rfl
  · rw [syncStowFailed_heat]
    simp only []
    split
    · exact wakeEvent_heat _
    · rfl

theorem admitClaim_heat (f : Bool) (k : Core) : (admitClaim f k).heat = k.heat := by
  unfold admitClaim
  simp only []
  split
  · rw [setStow_heat]
    split
    · exact raiseCond_heat ..
    · rfl
  · split
    · exact raiseCond_heat ..
    · rfl

section
variable {P Q : Heater → Prop} (happly : ∀ k, P k.heat → Q (applyAllowance e k).heat)
include happly

theorem computePass_heat (h : P k.heat) : Q (computePass e k).1.heat := by
  have handed (pool : Nat) : Q (handAllowance e pool (overcommitTest e (withFigures e k)).1).heat := by
    refine happly _ ?_
    show P (overcommitTest e (withFigures e k)).1.heat
    rw [overcommitTest_heat]
    exact h
  unfold computePass
  simp only []
  split
  · rw [admitClaim_heat]
    exact handed _
  · exact handed _

variable (hagain : ∀ h, Q h → P h)
include hagain

theorem computeTimes_heat : ∀ (n : Nat) (k : Core), (P k.heat ∧ 0 < n) ∨ Q k.heat → Q (computeTimes e n k).heat := by
  intro n
  induction n with
  | zero => exact fun k h => h.resolve_left fun ⟨_, hn⟩ => absurd hn (by decide)
  | succ n ih =>
    intro k h
    have hpass := computePass_heat happly (h.elim (fun ⟨hp, _⟩ => hp) (hagain _))
    unfold computeTimes
    simp only []
    split
    · exact ih _ (.inr hpass)
    · exact hpass

/-- What an allowance applied gives the heater unit, a computation gives it. -/
theorem compute_heat (h : P k.heat) : Q (compute e k).heat := by
  unfold compute
  split
  · exact computeTimes_heat happly hagain 3 k (.inl ⟨h, by decide⟩)
  · exact happly _ h

/-- What an allowance applied gives the heater unit of an evaluation's demands, the evaluation gives it. -/
theorem evaluateHeat_heat (hruns : heaterRuns e = true) (h : P (formDemands e k)) : Q (evaluateHeat e k).heat := by
  unfold evaluateHeat
  rw [if_pos hruns]
  simp only []
  split
  · exact happly _ h
  · exact compute_heat happly hagain h

end

theorem evaluateHeat_demand (hruns : heaterRuns e = true) (k : Core) :
    (evaluateHeat e k).heat.demand = (formDemands e k).demand :=
  evaluateHeat_heat (P := fun h => h.demand = (formDemands e k).demand)
    (Q := fun h => h.demand = (formDemands e k).demand)
    (fun _ h => h) (fun _ h => h) hruns rfl

/-! ## HEAT (R92) -/

theorem exec_heat (o : Order) (s : State) : exec (.heat o) s = run (takeOrder o heatModeArg (onCore heatOrder)) s := rfl

/-- A heat mode ordered is in force, and leaves alone what an evaluation leaves alone. -/
theorem heatOrder_same (m : HeatMode) (e : Env) (k : Core) :
    Same true { k with heat := { k.heat with mode := m } } (heatOrder m e k).1 := by
  unfold heatOrder
  split
  · rename_i h
    rw [← h]
    exact .refl _
  · exact (Same.refl _).evaluateHeat

/-- Settles O29. -/
theorem heatOrderSetsMode : Obligations.HeatOrderSetsMode := by
  intro o m s ht hm h
  obtain ⟨henv, -⟩ := hearOrder_parts o s
  refine ⟨_, (exec_heat o s).trans (run_takeOrder_onCore heatOrder ht hm), ?_⟩
  have hsame := heatOrder_same m h.env h.core
  obtain ⟨haxes, hstow, -, hheat, -⟩ := afterOrder_blocks (intervalOf s) o h (heatOrder m h.env h.core)
  obtain ⟨-, -, -, -, -, hmode, -⟩ := settle_store (intervalOf s)
    (giveResult o (heatOrder m h.env h.core).2 { h with core := (heatOrder m h.env h.core).1 })
  have hset : (heatOrder m h.env h.core).1.heat.mode = m := hsame.mode
  refine ⟨?_, (congrArg Heater.mode hheat).trans hset, ?_, rfl, ?_, ?_, ?_, fun hoff hwas hruns => ?_⟩
  · show (heatOrder m h.env h.core).2 = _
    unfold heatOrder
    split <;> rfl
  · refine hmode.trans (Eq.trans ?_ hset)
    rw [← hheat]
    exact congrArg Heater.mode (settle_heat ..).symm
  · exact (congrArg (fun a : Axes => motion a.az) haxes).trans (hsame.axis .az)
  · exact (congrArg (fun a : Axes => motion a.el) haxes).trans (hsame.axis .el)
  · exact (congrArg StowUnit.causes hstow).trans hsame.causes
  · refine (congrArg Heater.demand hheat).trans ?_
    have hwork : (heatOrder m h.env h.core).1 = evaluateHeat h.env { h.core with heat :=
        { h.core.heat with mode := m } } := by
      unfold heatOrder
      rw [if_neg (hoff ▸ hwas)]
    rw [hwork, evaluateHeat_demand (by rw [show h.env = s.env from henv]; exact hruns)]
    exact if_pos (.inl hoff)

/-! ## CLEAR (R175) -/

theorem exec_clear (o : Order) (s : State) :
    exec (.clear o) s = run (takeOrder o classSetArg (onCore clearOrder)) s := rfl

theorem mem_allConds (c : Cond) : c ∈ allConds := by
  cases c with
  | limit a => cases a <;> decide
  | follow a => cases a <;> decide
  | encoder a => cases a <;> decide
  | brake a => cases a <;> decide
  | zoneSensor z => fin_cases z <;> decide
  | zoneFeedback z => fin_cases z <;> decide
  | sectionFailed x => cases x <;> decide
  | _ => decide

/-- A condition that a CLEAR of the classes makes CLEAR (R175). -/
def clearable (cs : BitVec 6) (u : CondUnit) (c : Cond) : Bool := condAt u c = .latched && inClassSet (classOf c) cs

/-- One step of CLEAR's pass over the conditions, on the condition itself and on the others. -/
theorem condAt_clearStep (cs : BitVec 6) (u : CondUnit) (c d : Cond) :
    condAt (if clearable cs u d then setCond d .clear u else u) c =
      if c = d ∧ clearable cs u c = true then .clear else condAt u c := by
  by_cases hd : c = d
  · subst hd
    by_cases hc : clearable cs u c = true
    · rw [if_pos hc, if_pos ⟨rfl, hc⟩, condAt_setCond]
    · rw [if_neg hc, if_neg (mt And.right hc)]
  · rw [if_neg (mt And.left hd)]
    split
    · exact condAt_setCond_ne _ _ hd
    · rfl

theorem clearLatched_fold (cs : BitVec 6) (c : Cond) : ∀ (l : List Cond) (u : CondUnit),
    condAt (l.foldl (fun u d => if clearable cs u d then setCond d .clear u else u) u) c =
      if c ∈ l ∧ clearable cs u c = true then .clear else condAt u c := by
  intro l
  induction l with
  | nil => intro u; simp
  | cons d l ih =>
    intro u
    rw [List.foldl_cons, ih]
    by_cases hc : clearable cs u c = true
    · by_cases hd : c = d
      · have hstep : condAt (if clearable cs u d then setCond d .clear u else u) c = .clear := by
          rw [condAt_clearStep, if_pos ⟨hd, hc⟩]
        rw [hstep, ite_self, if_pos ⟨List.mem_cons.mpr (.inl hd), hc⟩]
      · have hstep : condAt (if clearable cs u d then setCond d .clear u else u) c = condAt u c := by
          rw [condAt_clearStep, if_neg (mt And.left hd)]
        rw [clearable, hstep, ← clearable]
        simp only [List.mem_cons, hd, false_or]
    · have hstep : condAt (if clearable cs u d then setCond d .clear u else u) c = condAt u c := by
        rw [condAt_clearStep, if_neg (mt And.right hc)]
      rw [clearable, hstep, ← clearable, if_neg (mt And.right hc), if_neg (mt And.right hc)]

theorem condAt_clearLatched (cs : BitVec 6) (u : CondUnit) (c : Cond) :
    condAt (clearLatched cs u) c =
      if condAt u c = .latched && inClassSet (classOf c) cs then .clear else condAt u c := by
  have hfold : clearLatched cs u =
      allConds.foldl (fun u d => if clearable cs u d then setCond d .clear u else u) u := by
    unfold clearLatched clearable
    rfl
  rw [hfold, clearLatched_fold]
  exact if_congr (and_iff_right (mem_allConds c)) rfl rfl

theorem Same.condAt_of {m : Bool} {u : CondUnit} {t : Core} {c : Cond} (h : Same m { k with cond := u } t)
    (hc : looseCond m c = false) : condAt t.cond c = condAt u c := h.conds c hc

theorem clearConditions_same (cs : BitVec 6) (e : Env) (k : Core) :
    Same true { k with cond := clearLatched cs k.cond } (clearConditions cs e k) := by
  unfold clearConditions
  simp only []
  split
  · exact (Same.refl _).evaluateHeat
  · exact .refl _

theorem clearConditions_motion (cs : BitVec 6) (e : Env) (k : Core) (i : Axis) :
    motion (getAxis (clearConditions cs e k) i) = motion (getAxis k i) := by
  have h := clearConditions_same cs e k
  generalize clearLatched cs k.cond = u at h
  exact h.axis i

theorem clearConditions_stow (cs : BitVec 6) (e : Env) (k : Core) : StowRuns k (clearConditions cs e k) := by
  unfold clearConditions
  generalize clearLatched cs k.cond = u
  simp only []
  split
  · exact (StowRuns.of_eq rfl).trans (evaluateHeat_stow ..)
  · exact .of_eq rfl

/-- An axis in FAULT returns to BRAKED at its reading, unless a cause remains (R6). -/
def returnedAxis (remains : Bool) (r : AxisRec) : AxisRec :=
  if r.state = .fault ∧ remains = false then { r with state := .braked, target := .none, x := readingOf r } else r

theorem syncStowFailed_same (k : Core) : Same true k (syncStowFailed k) := (Same.refl k).syncStowFailed

theorem returnAxis_motion (e : Env) (i : Axis) (k : Core) :
    motion (getAxis (returnAxis e i k) i) = motion (returnedAxis (faultRemains e i k) (getAxis k i))
      ∧ motion (getAxis (returnAxis e i k) (otherAxis i)) = motion (getAxis k (otherAxis i))
      ∧ (returnAxis e i k).stow.state = k.stow.state := by
  unfold returnAxis returnedAxis
  simp only []
  split
  · refine ⟨((syncStowFailed_same _).axis i).trans ?_, ((syncStowFailed_same _).axis _).trans ?_,
      syncStowFailed_state _⟩
    · rw [getAxis_putAxis]
    · rw [getAxis_putAxis_other]
  · exact ⟨rfl, rfl, rfl⟩

theorem faultRemains_motion {k' : Core} {i : Axis} (h : motion (getAxis k' i) = motion (getAxis k i)) :
    faultRemains e i k' = faultRemains e i k := by
  unfold faultRemains brakeEnergised
  rw [motion_state h, motion_engaging h, motion_encoderFault h]

theorem returnedAxis_motion {r r' : AxisRec} (b : Bool) (h : motion r' = motion r) :
    motion (returnedAxis b r') = motion (returnedAxis b r) := by
  unfold returnedAxis
  rw [motion_state h]
  split
  · have heq := congrArg (fun r : AxisRec =>
      motion { r with state := AxisState.braked, target := Target.none, x := readingOf r }) h
    exact heq
  · exact h

/-- The blocks once CLEAR has cleared its conditions and returned the axes. -/
def returned (cs : BitVec 6) (e : Env) (k : Core) : Core :=
  returnAxis e .el (returnAxis e .az (clearConditions cs e k))

theorem returned_motion (cs : BitVec 6) (e : Env) (k : Core) (i : Axis) :
    motion (getAxis (returned cs e k) i) = motion (returnedAxis (faultRemains e i k) (getAxis k i)) := by
  obtain ⟨haz, hother, -⟩ := returnAxis_motion e .az (clearConditions cs e k)
  obtain ⟨hel, hback, -⟩ := returnAxis_motion e .el (returnAxis e .az (clearConditions cs e k))
  have hkeep (j : Axis) : motion (getAxis (clearConditions cs e k) j) = motion (getAxis k j) :=
    clearConditions_motion cs e k j
  cases i with
  | az =>
    refine hback.trans (haz.trans ?_)
    rw [faultRemains_motion (hkeep .az)]
    exact returnedAxis_motion _ (hkeep .az)
  | el =>
    have hel2 : motion (getAxis (returnAxis e .az (clearConditions cs e k)) .el) = motion (getAxis k .el) :=
      hother.trans (hkeep .el)
    refine hel.trans ?_
    rw [faultRemains_motion hel2]
    exact returnedAxis_motion _ hel2

theorem returned_same (cs : BitVec 6) (e : Env) (k : Core) :
    Same false { k with cond := clearLatched cs k.cond } (returned cs e k) :=
  ((clearConditions_same cs e k).weaken.returnAxis .az).returnAxis .el

theorem returned_failed (cs : BitVec 6) (e : Env) (k : Core) :
    (returned cs e k).stow.state = .failed ↔ k.stow.state = .failed := by
  obtain ⟨-, -, haz⟩ := returnAxis_motion e .az (clearConditions cs e k)
  obtain ⟨-, -, hel⟩ := returnAxis_motion e .el (returnAxis e .az (clearConditions cs e k))
  rw [returned, hel, haz]
  obtain h | ⟨hd, hm⟩ := clearConditions_stow cs e k
  · rw [h]
  · rw [hd, hm]
    decide

theorem clearOrder_drive {cs : BitVec 6} (h : inClassSet .drive cs = true) (e : Env) (k : Core) :
    clearOrder cs e k = (clearFailed e (returned cs e k), .done) := if_pos h

theorem clearOrder_drive_core {cs : BitVec 6} (h : inClassSet .drive cs = true) (e : Env) (k : Core) :
    (clearOrder cs e k).1 = clearFailed e (returned cs e k) := by rw [clearOrder_drive h]

theorem clearOrder_other {cs : BitVec 6} (h : inClassSet .drive cs = false) (e : Env) (k : Core) :
    clearOrder cs e k = (clearConditions cs e k, .done) := if_neg (by rw [h]; decide)

theorem clearFailed_same {k0 : Core} (h : Same false k0 k) : Same false k0 (clearFailed e k) := by
  unfold clearFailed
  split
  · exact h.reevaluate
  · exact h

theorem clearOrder_same (cs : BitVec 6) (e : Env) (k : Core) :
    Same false { k with cond := clearLatched cs k.cond } (clearOrder cs e k).1 := by
  cases h : inClassSet .drive cs with
  | true =>
    rw [clearOrder_drive_core h]
    exact clearFailed_same (returned_same cs e k)
  | false =>
    rw [clearOrder_other h]
    exact (clearConditions_same cs e k).weaken

theorem wakeEvent_unit {k' : Core} (h : k'.stow = k.stow) : (wakeEvent k').stow = (wakeEvent k).stow := by
  unfold wakeEvent
  rw [h]
  split <;> simp only [h]

theorem raiseCond_unit (c : Cond) (k : Core) :
    (raiseCond c k).stow = k.stow ∨ (raiseCond c k).stow = (wakeEvent k).stow := by
  unfold raiseCond
  split
  · exact .inl rfl
  · refine .inr (wakeEvent_unit ?_)
    split <;> rfl

theorem syncStowFailed_unit (k : Core) :
    (syncStowFailed k).stow = k.stow ∨ (syncStowFailed k).stow = (wakeEvent k).stow := by
  unfold syncStowFailed syncCond
  split
  · exact raiseCond_unit ..
  · exact .inl (endCond_stow ..)

theorem wakeEvent_pin (k : Core) :
    (wakeEvent k).stow.pin = k.stow.pin ∧ (wakeEvent k).stow.pinTimer = k.stow.pinTimer := by
  unfold wakeEvent
  split <;> exact ⟨rfl, rfl⟩

/-- A change of the stow state drives the pin out in PINNING and leaves it off in every other state (R48). -/
theorem setStow_pin {n : StowState} (h : ¬k.stow.state = n) :
    (setStow n k).stow.pin = (if n = .pinning then .drivenOut else .off)
      ∧ (setStow n k).stow.pinTimer = (if n = .pinning then some 0 else none) := by
  have synced (k : Core) :
      (syncStowFailed k).stow.pin = k.stow.pin ∧ (syncStowFailed k).stow.pinTimer = k.stow.pinTimer := by
    obtain h | h := syncStowFailed_unit k
    · rw [h]
      exact ⟨rfl, rfl⟩
    · rw [h]
      exact wakeEvent_pin k
  unfold setStow
  rw [if_neg h, (synced _).1, (synced _).2]
  simp only []
  split
  · exact wakeEvent_pin _
  · exact ⟨rfl, rfl⟩

theorem holdElevation_stow (k : Core) : (holdElevation k).stow = k.stow := by
  unfold holdElevation
  split
  · exact takeHold_stow ..
  · rfl

theorem enterStowed_state (k : Core) : (enterStowed k).stow.state = .stowed := by
  rw [enterStowed, enterStopping_stow, enterStopping_stow, setStow_state]

/-- A re-evaluation out of FAILED with no axis in FAULT, case by case (R60). -/
theorem reevaluate_cases (hs : k.stow.state = .failed) (hf : someFault k = false) :
    (blocking e.list = true → (reevaluate e k).stow.state = .blocked)
      ∧ (blocking e.list = false →
        (pinEngaged e = true → pinRetracted e = false → inWindow k = true → (reevaluate e k).stow.state = .stowed)
        ∧ (¬(pinEngaged e = true ∧ pinRetracted e = false ∧ inWindow k = true) →
          (pinIsIn e = false → (reevaluate e k).stow.state = .pinning ∧ (reevaluate e k).stow.pin = .drivenOut)
          ∧ (pinIsIn e = true → k.stow.causes = noCauses → (reevaluate e k).stow.state = .clear)
          ∧ (pinIsIn e = true → ¬k.stow.causes = noCauses → e.inputs.ampFault = false →
            (reevaluate e k).stow.state = .demanded ∨ (reevaluate e k).stow.state = .moving))) := by
  refine ⟨fun hb => ?_, fun hb => ⟨fun he hr hw => ?_, fun hn => ?_⟩⟩
  · rw [reevaluate, if_pos hb, setStow_state]
  · rw [reevaluate, if_neg (by simp [hb]), if_pos (by simp [he, hr, hw]), enterStowed_state]
  · have hstep : reevaluate e k = (if !pinIsIn e then holdElevation (setStow .pinning k)
        else if k.stow.causes = noCauses then setStow .clear k
        else if someFault k then setStow .failed k
        else enterDemanded e k) := by
      rw [reevaluate, if_neg (by simp [hb]), if_neg (by simpa [and_assoc] using hn)]
    rw [hstep]
    refine ⟨fun hi => ?_, fun hi hc => ?_, fun hi hc ha => ?_⟩
    · rw [if_pos (by simp [hi]), holdElevation_stow]
      obtain ⟨hpin, -⟩ := setStow_pin (k := k) (n := .pinning) (by rw [hs]; decide)
      exact ⟨setStow_state .., hpin⟩
    · rw [if_neg (by simp [hi]), if_pos hc, setStow_state]
    · rw [if_neg (by simp [hi]), if_neg hc, if_neg (by simp [hf])]
      exact enterDemanded_state ha k

/-- CLEAR without the class DRIVE: the axes and the causes stand. -/
theorem clearOrder_other_blocks {cs : BitVec 6} (h : inClassSet .drive cs = false) (e : Env) (k : Core) :
    (∀ i, motion (getAxis (clearOrder cs e k).1 i) = motion (getAxis k i))
      ∧ (clearOrder cs e k).1.stow.causes = k.stow.causes := by
  rw [clearOrder_other h]
  have hsame := clearConditions_same cs e k
  generalize clearLatched cs k.cond = u at hsame
  exact ⟨hsame.axis, hsame.causes⟩

/-- The axes of FAULT once CLEAR of the DRIVE class has returned those without a remaining cause. -/
theorem returned_fault (cs : BitVec 6) (e : Env) (k : Core) (i : Axis) :
    (getAxis (returned cs e k) i).state = .fault ↔ (getAxis k i).state = .fault ∧ faultRemains e i k = true := by
  rw [motion_state (returned_motion cs e k i)]
  unfold returnedAxis
  split
  · rename_i h
    simp [h.2]
  · rename_i h
    refine ⟨fun hf => ⟨hf, ?_⟩, And.left⟩
    simpa [hf] using h

theorem someFault_returned (cs : BitVec 6) (e : Env) (k : Core) : someFault (returned cs e k) = true ↔
    ((getAxis k .az).state = .fault ∧ faultRemains e .az k = true)
      ∨ ((getAxis k .el).state = .fault ∧ faultRemains e .el k = true) := by
  rw [← returned_fault cs, ← returned_fault cs]
  simp only [someFault, Bool.or_eq_true, decide_eq_true_eq, getAxis_az, getAxis_el]

theorem condAt_returned {c : Cond} (hc : looseCond false c = false) (cs : BitVec 6) (e : Env) (k : Core) :
    condAt (returned cs e k).cond c =
      if condAt k.cond c = .latched && inClassSet (classOf c) cs then .clear else condAt k.cond c := by
  rw [← condAt_clearLatched]
  exact (returned_same cs e k).condAt_of hc

theorem pinFeedback_returned (cs : BitVec 6) (e : Env) (k : Core) :
    isActive (returned cs e k) .pinFeedback = true ↔ condAt k.cond .pinFeedback = .active := by
  rw [isActive, decide_eq_true_eq, condAt_returned rfl]
  split
  · rename_i h
    simp only [Bool.and_eq_true, decide_eq_true_eq] at h
    simp [h.1]
  · rfl

theorem inWindow_returned (cs : BitVec 6) (e : Env) (k : Core) : inWindow (returned cs e k) = inWindow k := by
  have hr : (getAxis (returned cs e k) .el).reading = (getAxis k .el).reading := by
    rw [motion_reading (returned_motion cs e k .el)]
    unfold returnedAxis
    split <;> rfl
  unfold inWindow
  rw [show (returned cs e k).axes.el.reading = k.axes.el.reading from hr]

/-- CLEAR of the DRIVE class, by the axes and out of FAILED (R6, R62, R175). -/
theorem clearOrder_drive_blocks {cs : BitVec 6} (h : inClassSet .drive cs = true) (e : Env) (k : Core) :
    let stays (i : Axis) : Prop := (getAxis k i).state = .fault ∧ faultRemains e i k = true
    let t := (clearOrder cs e k).1
    (∀ i : Axis,
        (stays i → (getAxis t i).state = .fault)
        ∧ (¬k.stow.state = .failed →
          ((getAxis k i).state = .fault → ¬stays i →
            (getAxis t i).state = .braked ∧ (getAxis t i).target = .none ∧ (getAxis t i).x = readingOf (getAxis k i))
          ∧ (¬(getAxis k i).state = .fault → motion (getAxis t i) = motion (getAxis k i))))
      ∧ (k.stow.state = .failed →
        ((stays .az ∨ stays .el ∨ condAt k.cond .pinFeedback = .active) → t.stow.state = .failed)
        ∧ (¬stays .az → ¬stays .el → ¬condAt k.cond .pinFeedback = .active →
          (blocking e.list = true → t.stow.state = .blocked)
          ∧ (blocking e.list = false →
            (pinEngaged e = true → pinRetracted e = false → inWindow k = true → t.stow.state = .stowed)
            ∧ (¬(pinEngaged e = true ∧ pinRetracted e = false ∧ inWindow k = true) →
              (pinIsIn e = false → t.stow.state = .pinning ∧ t.stow.pin = .drivenOut)
              ∧ (pinIsIn e = true → k.stow.causes = noCauses → t.stow.state = .clear)
              ∧ (pinIsIn e = true → ¬k.stow.causes = noCauses → e.inputs.ampFault = false →
                t.stow.state = .demanded ∨ t.stow.state = .moving))))) := by
  intro stays t
  have ht : t = clearFailed e (returned cs e k) := clearOrder_drive_core h e k
  have hstay : (stays .az ∨ stays .el ∨ condAt k.cond .pinFeedback = .active) ∨ ¬k.stow.state = .failed →
      t = returned cs e k := fun hc => by
    rw [ht]
    refine if_neg fun ⟨hs, hf, hp⟩ => ?_
    obtain (haz | hel | hpin) | hn := hc
    · exact absurd (hf.symm.trans ((someFault_returned cs e k).mpr (.inl haz))) (by decide)
    · exact absurd (hf.symm.trans ((someFault_returned cs e k).mpr (.inr hel))) (by decide)
    · exact absurd (hp.symm.trans ((pinFeedback_returned cs e k).mpr hpin)) (by decide)
    · exact hn ((returned_failed cs e k).mp hs)
  refine ⟨fun i => ⟨fun hi => ?_, fun hn => ⟨fun hf hi => ?_, fun hf => ?_⟩⟩,
    fun hs => ⟨fun hc => ?_, fun haz hel hp => ?_⟩⟩
  · rw [hstay (.inl (by cases i; exacts [.inl hi, .inr (.inl hi)]))]
    exact (returned_fault cs e k i).mpr hi
  · have hr : faultRemains e i k = false := by simpa [stays, hf] using hi
    have hm := returned_motion cs e k i
    rw [returnedAxis, if_pos ⟨hf, hr⟩] at hm
    rw [hstay (.inr hn)]
    exact ⟨motion_state hm, motion_target hm, motion_x hm⟩
  · have hm := returned_motion cs e k i
    rw [returnedAxis, if_neg fun ⟨h, _⟩ => hf h] at hm
    rw [hstay (.inr hn)]
    exact hm
  · rw [hstay (.inl hc)]
    exact (returned_failed cs e k).mpr hs
  · have hfault : someFault (returned cs e k) = false := by
      rw [← Bool.not_eq_true, someFault_returned]
      exact fun h => h.elim haz hel
    have hpin : isActive (returned cs e k) .pinFeedback = false := by
      rw [← Bool.not_eq_true, pinFeedback_returned]
      exact hp
    have hfailed := (returned_failed cs e k).mpr hs
    have hwork : t = reevaluate e (returned cs e k) := by rw [ht, clearFailed, if_pos ⟨hfailed, hfault, hpin⟩]
    have hcauses : (returned cs e k).stow.causes = k.stow.causes := by
      have hsame := returned_same cs e k
      generalize clearLatched cs k.cond = u at hsame
      exact hsame.causes
    rw [hwork, ← inWindow_returned cs e k, ← hcauses]
    exact reevaluate_cases hfailed hfault

theorem looseCond_false {c : Cond} (hs : ¬c = .stowFailed) (ha : ¬c = .azRange) (ho : ¬c = .overload)
    (hf : ¬c = .stowForced) :
    looseCond false c = false := by simp [looseCond, ownCond, hs, ha, ho, hf]

/-- Settles O30. -/
theorem clearOrderClears : Obligations.ClearOrderClears := by
  intro o cs s ht hcs h stays
  obtain ⟨henv, -⟩ := hearOrder_parts o s
  have hrun : exec (.clear o) s = .next (afterOrder (intervalOf s) o h (clearOrder cs s.env h.core)) := by
    rw [← henv]
    exact (exec_clear o s).trans (run_takeOrder_onCore clearOrder ht hcs)
  refine ⟨_, hrun, ?_⟩
  obtain ⟨haxes, hstow, -, -, hcond⟩ := afterOrder_blocks (intervalOf s) o h (clearOrder cs s.env h.core)
  have hget := getAxis_of_axes haxes
  refine ⟨?_, fun c hs ha ho hf => ?_, fun hd => ?_, fun hd => ?_, fun hd => ?_⟩
  · show (clearOrder cs s.env h.core).2 = _
    cases hd : inClassSet .drive cs with
    | true => rw [clearOrder_drive hd]
    | false => rw [clearOrder_other hd]
  · have hwork : condAt (clearOrder cs s.env h.core).1.cond c = condAt (clearLatched cs h.core.cond) c :=
      (clearOrder_same cs s.env h.core).condAt_of (looseCond_false hs ha ho hf)
    have hc : condAt (afterOrder (intervalOf s) o h (clearOrder cs s.env h.core)).core.cond c =
        condAt (clearLatched cs h.core.cond) c := (congrArg (condAt · c) hcond).trans hwork
    rw [condAt_clearLatched] at hc
    refine hc.trans (if_congr ?_ rfl rfl)
    rw [Bool.and_eq_true, decide_eq_true_eq]
  · obtain ⟨hm, hc⟩ := clearOrder_other_blocks hd s.env h.core
    exact ⟨(congrArg motion (hget .az)).trans (hm .az), (congrArg motion (hget .el)).trans (hm .el),
      (congrArg StowUnit.causes hstow).trans hc⟩
  · obtain ⟨haxis, -⟩ := clearOrder_drive_blocks hd s.env h.core
    intro i
    have hi := haxis i
    rw [← hget i] at hi
    exact hi
  · obtain ⟨-, hfailed⟩ := clearOrder_drive_blocks hd s.env h.core
    rw [← hstow] at hfailed
    exact hfailed

/-! ## PROVE (R42, R176) -/

theorem exec_prove (o : Order) (s : State) : exec (.prove o) s = run (takeOrder o proofTargetArg proveOrder) s := rfl

theorem proveOrder_refused {s : State} (h : mayProve s.env s.core = false) (p : Bool × Bool) :
    proveOrder p s = (s, .busy) := if_neg (by rw [h]; decide)

theorem proveOrder_started {s : State} (h : mayProve s.env s.core = true) (p : Bool × Bool) :
    (proveOrder p s).2 = .done
      ∧ (proveOrder p s).1.env.wind = (if p.1 then startWindProof s.env.setup.secC s.env.wind else s.env.wind)
      ∧ (proveOrder p s).1.core.cond.proof = (if p.2 then some startFeedbackProof else s.core.cond.proof) := by
  unfold proveOrder
  rw [if_pos h]
  refine ⟨rfl, ?_, ?_⟩
  · simp only []
    split <;> rfl
  · simp only []
    split <;> rfl

/-- A proof starts only where none runs. -/
theorem noProof_of_mayProve (h : mayProve e k = true) : e.wind.proof = none ∧ k.cond.proof = none := by
  simp only [mayProve, Bool.and_eq_true, Option.isNone_iff_eq_none] at h
  obtain ⟨⟨hw, hf⟩, -⟩ := h
  exact ⟨hw, hf⟩

/-- Settles O31. -/
theorem proveOrderStartsProofs : Obligations.ProveOrderStartsProofs := by
  intro o w f s ht hp h
  obtain ⟨hlive, htaken⟩ := ht
  refine ⟨settle (intervalOf s) (giveResult o (proveOrder (w, f) h).2 (proveOrder (w, f) h).1), ?_, ?_⟩
  · rw [exec_prove, run_live _ s hlive, takeOrder_good htaken hp]
  obtain ⟨-, -, -, -, hcond, -⟩ := giveResult_core o (proveOrder (w, f) h).2 (proveOrder (w, f) h).1
  rw [settle_cond, hcond]
  refine ⟨fun hm => ?_, fun hm => ?_⟩
  · have hr : proveOrder (w, f) h = (h, .busy) := proveOrder_refused hm _
    rw [hr]
    exact ⟨rfl, rfl, rfl⟩
  · obtain ⟨hdone, hwind, hproof⟩ := proveOrder_started hm (w, f)
    obtain ⟨hnoWind, hnoProof⟩ := noProof_of_mayProve hm
    have hset : (settle (intervalOf s) (giveResult o (proveOrder (w, f) h).2 (proveOrder (w, f) h).1)).env.wind =
        if w then startWindProof h.env.setup.secC h.env.wind else h.env.wind := hwind
    have hsome : (settle (intervalOf s) (giveResult o (proveOrder (w, f) h).2
        (proveOrder (w, f) h).1)).env.wind.proof.isSome = w := by
      rw [hset]
      cases w
      · exact congrArg Option.isSome hnoWind
      · rfl
    refine ⟨hdone, hsome, ?_, ?_, fun hw => ?_⟩
    · rw [hproof]
      cases f
      · exact congrArg Option.isSome hnoProof
      · rfl
    · exact hsome
    · rw [hset, hw]
      refine ⟨rfl, rfl, fun r hr => ?_⟩
      obtain rfl := Option.some.inj hr
      exact ⟨rfl, rfl, rfl, rfl, rfl⟩

end Sys2Proof.Machine
end

section
/-! PROOFS. The peer table: what finding a record gives after one is placed, dropped or evicted, what a table change leaves of the other blocks, and the taking and ageing of records (R126 to R133). -/

namespace Sys2Proof.Machine

variable {e : Env} {k : Core} {s : State} {p q : Peer} {n m : Nat} {l : List Peer}

/-! ## Finding a record -/

theorem findPeer_cons_same (h : p.station = n) (l : List Peer) : findPeer n (p :: l) = some p := by
  simp [findPeer, h]

theorem findPeer_cons_other (h : ¬p.station = n) (l : List Peer) : findPeer n (p :: l) = findPeer n l := by
  simp [findPeer, h]

theorem findPeer_putPeer (p : Peer) (l : List Peer) : findPeer p.station (putPeer p l) = some p := by
  induction l with
  | nil => exact findPeer_cons_same rfl _
  | cons q qs ih =>
    unfold putPeer
    split
    · exact findPeer_cons_same rfl _
    split
    · exact findPeer_cons_same rfl _
    · rename_i hne
      rw [findPeer_cons_other fun he => hne he.symm, ih]

theorem findPeer_putPeer_other (h : ¬m = p.station) (l : List Peer) : findPeer m (putPeer p l) = findPeer m l := by
  have hp : ¬p.station = m := fun he => h he.symm
  induction l with
  | nil => exact findPeer_cons_other hp _
  | cons q qs ih =>
    unfold putPeer
    split
    · exact findPeer_cons_other hp _
    split
    · rename_i heq
      rw [findPeer_cons_other hp, findPeer_cons_other (heq ▸ hp)]
    · by_cases hq : q.station = m
      · rw [findPeer_cons_same hq, findPeer_cons_same hq]
      · rw [findPeer_cons_other hq, findPeer_cons_other hq, ih]

theorem findPeer_dropPeer (n : Nat) (l : List Peer) : findPeer n (dropPeer n l) = none := by
  rw [findPeer, List.find?_eq_none]
  intro q hq
  simpa using (mem_dropPeer.mp hq).2

theorem findPeer_dropPeer_other (h : ¬m = n) (l : List Peer) : findPeer m (dropPeer n l) = findPeer m l := by
  induction l with
  | nil => rfl
  | cons q qs ih =>
    rw [dropPeer] at ih ⊢
    by_cases hq : q.station = n
    · rw [List.filter_cons_of_neg (by simp [hq]), ih, findPeer_cons_other (by rw [hq]; exact fun he => h he.symm)]
    · rw [List.filter_cons_of_pos (by simp [hq])]
      by_cases hm : q.station = m
      · rw [findPeer_cons_same hm, findPeer_cons_same hm]
      · rw [findPeer_cons_other hm, findPeer_cons_other hm, ih]

theorem station_ne_of_findPeer_none (h : findPeer n l = none) (hq : q ∈ l) : ¬q.station = n := by
  simpa using List.find?_eq_none.mp h q hq

/-! ## The elder of two records (R129) -/

/-- The order of R129: younger, or of one age with a number that is not higher. -/
def NotElder (r q : Peer) : Prop := r.age < q.age ∨ (r.age = q.age ∧ r.station ≤ q.station)

theorem NotElder.trans {a b c : Peer} (h : NotElder a b) (g : NotElder b c) : NotElder a c := by
  unfold NotElder at *
  omega

/-- The record kept is elder than the newcomer and the one before. -/
theorem elder_notElder (acc : Option Peer) (p : Peer) :
    ∃ q, elder acc p = some q ∧ NotElder p q ∧ ∀ a, acc = some a → NotElder a q := by
  unfold elder NotElder
  cases acc with
  | none => exact ⟨p, rfl, .inr ⟨rfl, le_rfl⟩, nofun⟩
  | some a =>
    simp only [Option.some.injEq, forall_eq']
    split
    · exact ⟨p, rfl, by omega, by omega⟩
    · exact ⟨a, rfl, by omega, by omega⟩

theorem foldl_elder_notElder (l : List Peer) : ∀ {acc : Option Peer} {q : Peer}, l.foldl elder acc = some q →
    (∀ r ∈ l, NotElder r q) ∧ ∀ a, acc = some a → NotElder a q := by
  induction l with
  | nil =>
    intro acc q h
    exact ⟨nofun, fun a ha => .inr (by rw [List.foldl_nil, ha] at h; rw [Option.some.inj h]; exact ⟨rfl, le_rfl⟩)⟩
  | cons p ps ih =>
    intro acc q h
    obtain ⟨b, hb, hp, hacc⟩ := elder_notElder acc p
    obtain ⟨hps, hstep⟩ := ih h
    refine ⟨fun r hr => ?_, fun a ha => (hacc a ha).trans (hstep b hb)⟩
    obtain rfl | hr := List.mem_cons.mp hr
    · exact hp.trans (hstep b hb)
    · exact hps r hr

theorem foldl_elder_some (l : List Peer) (b : Peer) : ∃ q, l.foldl elder (some b) = some q := by
  induction l generalizing b with
  | nil => exact ⟨b, rfl⟩
  | cons p ps ih =>
    obtain ⟨c, hc, -⟩ := elder_notElder (some b) p
    rw [List.foldl_cons, hc]
    exact ih c

/-- The eldest of some records. -/
def Eldest (ps : List Peer) (q : Peer) : Prop := q ∈ ps ∧ ∀ r ∈ ps, NotElder r q

theorem exists_eldest (h : ¬l = []) : ∃ q, l.foldl elder none = some q ∧ Eldest l q := by
  obtain ⟨p, ps, rfl⟩ := List.exists_cons_of_ne_nil h
  obtain ⟨q, hq⟩ := foldl_elder_some ps p
  obtain ⟨hall, -⟩ := foldl_elder_notElder (p :: ps) (acc := none) hq
  exact ⟨q, hq, (foldl_elder_mem (p :: ps) (acc := none) hq).resolve_right nofun, hall⟩

/-- The record that a newcomer evicts, by the three cases of R129. -/
theorem evicted_cases (new : Peer) (l : List Peer) :
    let stale := l.filter fun q => !q.isFresh
    let foreign := l.filter fun q => !q.relFeeder
    (¬stale = [] → ∃ q, evicted new l = some q ∧ Eldest stale q)
      ∧ (stale = [] → new.relFeeder = true → ¬foreign = [] → ∃ q, evicted new l = some q ∧ Eldest foreign q)
      ∧ (stale = [] → new.relFeeder = false ∨ foreign = [] → evicted new l = none) := by
  intro stale foreign
  refine ⟨fun h => ?_, fun hs hn h => ?_, fun hs h => ?_⟩
  · obtain ⟨q, hq, he⟩ := exists_eldest h
    exact ⟨q, by simp only [evicted, stale] at hq ⊢; rw [hq], he⟩
  · obtain ⟨q, hq, he⟩ := exists_eldest h
    refine ⟨q, ?_, he⟩
    have hnil : (l.filter fun p => !p.isFresh).foldl elder none = none := by rw [show l.filter _ = [] from hs]; rfl
    simp only [evicted, hnil, hn, if_true]
    exact hq
  · have hnil : (l.filter fun p => !p.isFresh).foldl elder none = none := by rw [show l.filter _ = [] from hs]; rfl
    simp only [evicted, hnil]
    obtain hn | hf := h
    · rw [if_neg (by rw [hn]; decide)]
    · rw [show l.filter _ = [] from hf]
      split <;> rfl

/-! ## What a table change leaves of the other blocks -/

/-- The isolation timer, ISOLATION and TABLE_FULL stand. -/
structure PeerKept (k k' : Core) : Prop where
  timer : k'.line.isolationTimer = k.line.isolationTimer
  cause : k'.stow.causes.isolation = k.stow.causes.isolation
  full : condAt k'.cond .tableFull = condAt k.cond .tableFull

theorem PeerKept.refl (k : Core) : PeerKept k k := ⟨rfl, rfl, rfl⟩

theorem PeerKept.trans {a b c : Core} (h : PeerKept a b) (g : PeerKept b c) : PeerKept a c :=
  ⟨g.timer.trans h.timer, g.cause.trans h.cause, g.full.trans h.full⟩

theorem updateCauses_keepsPeer (c : Causes) (hc : c.isolation = k.stow.causes.isolation) :
    PeerKept k (updateCauses e c k) := by
  have h := updateCauses_same (e := e) c k
  exact ⟨h.line.isolation, by rw [updateCauses_causes, hc], h.conds .tableFull rfl⟩

theorem handFeeder_keepsPeer (e : Env) (k : Core) : PeerKept k (handFeeder e k) := by
  have hsync : PeerKept k (syncCond .budgetMismatch (budgetsDiffer e) k) := by
    unfold syncCond
    split
    · exact ⟨(raiseCond_line .budgetMismatch k).isolation, by rw [raiseCond_causes], raiseCond_other (by decide) k⟩
    · exact ⟨by rw [endCond_line], by rw [endCond_stow], endCond_other (by decide) k⟩
  have h : Same true (syncCond .budgetMismatch (budgetsDiffer e) k) (handFeeder e k) := (Same.refl _).compute
  exact hsync.trans ⟨h.line.isolation, by rw [h.causes], h.conds .tableFull rfl⟩

theorem changePeers_keepsPeer (l : List Peer) (w f : Bool) (s : State) :
    PeerKept s.core (changePeers l w f s).core := by
  have hwind : PeerKept s.core (if w then recountWind { s with env := { s.env with peers := l } }
      else { s with env := { s.env with peers := l } }).core := by
    split
    · exact updateCauses_keepsPeer _ rfl
    · exact .refl _
  unfold changePeers
  simp only []
  split
  · exact hwind.trans (handFeeder_keepsPeer ..)
  · exact hwind

theorem freeSlot_blocks (s : State) :
    (freeSlot s).core.line.isolationTimer = s.core.line.isolationTimer
      ∧ (freeSlot s).core.stow.causes.isolation = s.core.stow.causes.isolation
      ∧ ¬condAt (freeSlot s).core.cond .tableFull = .active :=
  ⟨congrArg LinePort.isolationTimer (endCond_line ..),
    congrArg (fun u : StowUnit => u.causes.isolation) (endCond_stow ..),
    endCond_notActive _ _⟩

/-- The removal of a record: the slot is free. -/
theorem changePeers_freeSlot (l : List Peer) (w f : Bool) (s : State) :
    (changePeers l w f (freeSlot s)).core.line.isolationTimer = s.core.line.isolationTimer
      ∧ (changePeers l w f (freeSlot s)).core.stow.causes.isolation = s.core.stow.causes.isolation
      ∧ ¬condAt (changePeers l w f (freeSlot s)).core.cond .tableFull = .active := by
  obtain ⟨htimer, hcause, hfull⟩ := freeSlot_blocks s
  have h := changePeers_keepsPeer l w f (freeSlot s)
  exact ⟨h.timer.trans htimer, h.cause.trans hcause, by rw [h.full]; exact hfull⟩

/-! ## Taking a record (R127 to R130) -/

theorem takePeer_isolation (p : Peer) (s : State) :
    (takePeer p s).core.line.isolationTimer = s.core.line.isolationTimer
      ∧ (takePeer p s).core.stow.causes.isolation = s.core.stow.causes.isolation := by
  have changed (l : List Peer) (w f : Bool) :
      (changePeers l w f s).core.line.isolationTimer = s.core.line.isolationTimer
      ∧ (changePeers l w f s).core.stow.causes.isolation = s.core.stow.causes.isolation :=
    ⟨(changePeers_keepsPeer l w f s).timer, (changePeers_keepsPeer l w f s).cause⟩
  unfold takePeer
  split
  · unfold updatePeer
    split
    · exact changed ..
    · obtain ⟨ht, hc, -⟩ := changePeers_freeSlot (dropPeer _ s.env.peers) _ _ s
      exact ⟨ht, hc⟩
  split
  · unfold admitPeer
    split
    · exact changed ..
    split
    · exact changed ..
    · exact ⟨(raiseCond_line .tableFull s.core).isolation, by rw [raiseCond_causes]⟩
  · exact ⟨rfl, rfl⟩

theorem takePeer_absent (h : findPeer p.station s.env.peers = none) (hr : isRelevant p = false) : takePeer p s = s := by
  simp [takePeer, h, hr]

theorem takePeer_present (h : findPeer p.station s.env.peers = some q) (hr : isRelevant p = true) :
    (takePeer p s).env.peers = putPeer p s.env.peers := by
  simp only [takePeer, h, updatePeer, hr, if_true, changePeers_peers]

theorem takePeer_free (h : findPeer p.station s.env.peers = none) (hr : isRelevant p = true)
    (hl : s.env.peers.length < 24) : (takePeer p s).env.peers = putPeer p s.env.peers := by
  have hlen : s.env.peers.length < tableMax := hl
  simp only [takePeer, h, hr, if_true, admitPeer, hlen, changePeers_peers]

theorem takePeer_lost (h : findPeer p.station s.env.peers = some q) (hr : isRelevant p = false) :
    (takePeer p s).env.peers = dropPeer p.station s.env.peers
      ∧ ¬condAt (takePeer p s).core.cond .tableFull = .active := by
  obtain ⟨-, hstation⟩ := findPeer_mem h
  have hwork : takePeer p s = changePeers (dropPeer p.station s.env.peers) (q.relWind || p.relWind)
      (q.relFeeder || p.relFeeder) (freeSlot s) := by
    simp only [takePeer, h, updatePeer, hr, hstation]
    rfl
  obtain ⟨-, -, hfull⟩ := changePeers_freeSlot (dropPeer p.station s.env.peers) (q.relWind || p.relWind)
    (q.relFeeder || p.relFeeder) s
  rw [hwork, changePeers_peers]
  exact ⟨rfl, hfull⟩

section
variable (h : findPeer p.station s.env.peers = none) (hr : isRelevant p = true) (hl : 24 ≤ s.env.peers.length)
include h hr hl

theorem takePeer_evicts (he : evicted p s.env.peers = some q) :
    (takePeer p s).env.peers = putPeer p (dropPeer q.station s.env.peers) := by
  have hlen : ¬s.env.peers.length < tableMax := Nat.not_lt.mpr hl
  simp only [takePeer, h, hr, if_true, admitPeer, hlen, if_false, he, changePeers_peers]

theorem takePeer_refused (he : evicted p s.env.peers = none) :
    takePeer p s = { s with core := raiseCond .tableFull s.core } := by
  have hlen : ¬s.env.peers.length < tableMax := Nat.not_lt.mpr hl
  simp only [takePeer, h, hr, if_true, admitPeer, hlen, if_false, he]

/-- What an eviction leaves for every station to find. -/
theorem takePeer_evicts_find (he : evicted p s.env.peers = some q) :
    findPeer p.station (takePeer p s).env.peers = some p ∧ findPeer q.station (takePeer p s).env.peers = none
      ∧ ∀ m, ¬m = p.station → ¬m = q.station → findPeer m (takePeer p s).env.peers = findPeer m s.env.peers := by
  rw [takePeer_evicts h hr hl he]
  refine ⟨findPeer_putPeer .., ?_, fun m hp hq => ?_⟩
  · rw [findPeer_putPeer_other (station_ne_of_findPeer_none h (evicted_mem he)), findPeer_dropPeer]
  · rw [findPeer_putPeer_other hp, findPeer_dropPeer_other hq]

end

/-! ## A peer's beacon (R114, R117, R125 to R130) -/

theorem takeBeacon_peer {a : SecA} {o : Byte} {bytes : List Byte} (ha : s.env.setup.secA = some a)
    (hl : bytes.length = 33) (ho : ¬o.toNat = a.station) (h1 : 1 ≤ o.toNat) (h64 : o.toNat ≤ 64) :
    takeBeacon o bytes s =
      if beaconWellFormed (decodeBeacon bytes) then
        takePeer (peerOf a o.toNat (decodeBeacon bytes)) { s with core := hearOther s.env s.core }
      else { s with core := hearOther s.env s.core } := by
  have hlen : ¬bytes.length ≠ beaconLength := fun hn => hn hl
  have hrange : inRange 1 64 o.toNat = true := by simp [inRange, h1, h64]
  simp only [takeBeacon, ha, hlen, if_false, ho, hrange, if_true]

theorem peerOf_station (a : SecA) (n : Nat) (b : Beacon) : (peerOf a n b).station = n := rfl

/-- Settles O32: the heard station takes the record by the cases of R127 to R130. -/
theorem peerBeaconIsStored : Obligations.PeerBeaconIsStored := by
  intro o bytes a s hlive ha hl ho h1 h64 p good leastOf stale foreign
  have hbeacon : takeBeacon o bytes s = if good = true then takePeer p { s with core := hearOther s.env s.core }
      else { s with core := hearOther s.env s.core } := takeBeacon_peer ha hl ho h1 h64
  have hstation : p.station = o.toNat := rfl
  have hexec : exec (.peerBeacon o bytes) s = .next (settle (intervalOf s) (takeBeacon o bytes s)) :=
      exec_live rfl hlive
  refine ⟨_, hexec, ?_⟩
  have hline := settle_line (intervalOf s) (takeBeacon o bytes s)
  rw [settle_env, settle_cond, settle_stow, hline.isolation, hbeacon, ← hstation]
  have hheard (hg : good = true) (u : State) : (if good = true then u
      else { s with core := hearOther s.env s.core }) = u := if_pos hg
  refine ⟨fun hc => ?_, fun hg => ?_, fun hnone hrel => ?_, fun hg hrel hroom => ?_, fun hg hrel hsome => ?_,
    fun hg hrel hnone hfull => ?_⟩
  · obtain ⟨htimer, hcauses⟩ := hearOther_configured (k := s.core) hc
    have hcause : (hearOther s.env s.core).stow.causes.isolation = false := congrArg Causes.isolation hcauses
    split
    · obtain ⟨ht, hi⟩ := takePeer_isolation p { s with core := hearOther s.env s.core }
      exact ⟨ht.trans htimer, hi.trans hcause⟩
    · exact ⟨htimer, hcause⟩
  · rw [if_neg (by rw [hg]; decide)]
  · split
    · rw [takePeer_absent (s := { s with core := hearOther s.env s.core }) hnone hrel]
    · rfl
  · rw [hheard hg]
    have hput : (takePeer p { s with core := hearOther s.env s.core }).env.peers = putPeer p s.env.peers := by
      cases hf : findPeer p.station s.env.peers with
      | some q => exact takePeer_present (s := { s with core := hearOther s.env s.core }) hf hrel
      | none =>
        refine takePeer_free (s := { s with core := hearOther s.env s.core }) hf hrel (hroom.resolve_left ?_)
        rw [hf]
        nofun
    rw [hput]
    exact ⟨findPeer_putPeer .., rfl, rfl, fun m hm => findPeer_putPeer_other hm _⟩
  · rw [hheard hg]
    obtain ⟨q, hq⟩ := Option.isSome_iff_exists.mp hsome
    obtain ⟨hpeers, hcond⟩ := takePeer_lost (s := { s with core := hearOther s.env s.core }) hq hrel
    rw [hpeers]
    exact ⟨findPeer_dropPeer .., hcond, fun m hm => findPeer_dropPeer_other hm _⟩
  · rw [hheard hg]
    obtain ⟨hstale, hforeign, hnoroom⟩ := evicted_cases p s.env.peers
    have evicts (q : Peer) (hq : evicted p s.env.peers = some q) :=
      takePeer_evicts_find (s := { s with core := hearOther s.env s.core }) hnone hrel hfull hq
    refine ⟨fun h => ?_, fun h hr hf => ?_, fun h hr => ?_⟩
    · obtain ⟨q, hq, he⟩ := hstale h
      exact ⟨q, he, evicts q hq⟩
    · obtain ⟨q, hq, he⟩ := hforeign h hr hf
      exact ⟨q, he, evicts q hq⟩
    · rw [takePeer_refused (s := { s with core := hearOther s.env s.core }) hnone hrel hfull (hnoroom h hr)]
      exact ⟨rfl, raiseCond_active ..⟩

/-! ## Ageing (R132, R133) -/

/-- Settles O39. -/
theorem peerRecordsAge : Obligations.PeerRecordsAge := by
  intro n p s hlive hp
  obtain ⟨-, rfl⟩ := findPeer_mem hp
  refine ⟨fun hfresh hdue => ⟨_, exec_live rfl hlive, ?_⟩, fun hdue => ⟨_, exec_live rfl hlive, ?_⟩⟩
  · have hwork : workOf (.peerStale p.station) s =
        changePeers (putPeer { p with isFresh := false } s.env.peers) p.relWind p.relFeeder s := by
      have hstale : staleDue p = true := decide_eq_true hdue
      simp [workOf, markStale, hp, hfresh, hstale]
    rw [settle_env, hwork, changePeers_peers]
    exact ⟨findPeer_putPeer { p with isFresh := false } _,
      fun m hm => findPeer_putPeer_other (p := { p with isFresh := false }) hm _⟩
  · have hwork : workOf (.peerExpiry p.station) s =
        changePeers (dropPeer p.station s.env.peers) p.relWind p.relFeeder (freeSlot s) := by
      have hexpiry : expiryDue p = true := decide_eq_true hdue
      simp [workOf, expirePeer, hp, hexpiry]
    obtain ⟨-, -, hfull⟩ := changePeers_freeSlot (dropPeer p.station s.env.peers) p.relWind p.relFeeder s
    rw [settle_env, settle_cond, hwork, changePeers_peers]
    exact ⟨findPeer_dropPeer .., hfull, fun m hm => findPeer_dropPeer_other hm _⟩

end Sys2Proof.Machine
end

section
/-! PROOFS. The line port: its transmitter, its timers, the noise count and the rows that an intact frame spells (R105 to R121). -/

namespace Sys2Proof.Machine

variable {e : Env} {k : Core} {s : State}

/-! ## The interval in force (R118) -/

/-- The interval in force depends on the environment, the stow unit and the claim's state. -/
theorem intervalInForce_congr {k' : Core} (hs : k'.stow = k.stow) (hc : k'.fee.claim.state = k.fee.claim.state) :
    intervalInForce e k' = intervalInForce e k := by
  unfold intervalInForce exponentInForce watchApplies
  rw [hs, hc]

/-- A row that works on the blocks alone answers them settled. -/
theorem exec_core {i : Instr} {k' : Core} (hi : isResetRow i = false) (hlive : Live s)
    (hw : workOf i s = { s with core := k' }) : exec i s = .next (settle (intervalOf s) { s with core := k' }) := by
  rw [exec_live hi hlive, hw]

/-- Blocks whose stow unit and claim state stand make no request by the settling. -/
theorem settle_quiet (hs : k.stow = s.core.stow) (hc : k.fee.claim.state = s.core.fee.claim.state) :
    (settle (intervalOf s) { s with core := k }).core.line.pending = k.line.pending
      ∧ (settle (intervalOf s) { s with core := k }).core.line.tx = k.line.tx :=
  settle_request _ { s with core := k } (le_of_eq (intervalInForce_congr hs hc))

/-! ## Duplicate numbers (R115) -/

theorem silence_silent (l : LinePort) : (silence l).tx = .silent ∧ (silence l).duplicateTimer = some 0 := by
  unfold silence
  split
  · exact ⟨‹_›, rfl⟩
  · exact ⟨rfl, rfl⟩

theorem silence_pending (l : LinePort) : (silence l).pending = l.pending := by
  unfold silence
  split <;> rfl

theorem LineSame.silent {l l' : LinePort} (h : LineSame l l') (hs : ¬l.tx = .idle) : l'.tx = l.tx :=
  h.tx.resolve_right fun ⟨hi, _⟩ => hs hi

/-- Settles O33. -/
theorem ownNumberBeaconSilences : Obligations.OwnNumberBeaconSilences := by
  intro s hlive hr hd
  have hwork : workOf .ownNumberBeacon s =
      { s with core := raiseCond .duplicate { s.core with line := silence s.core.line } } := by
    simp [workOf, onBlocks, hearDuplicate, hr, hd]
  refine ⟨_, exec_core rfl hlive hwork, ?_⟩
  rw [settle_cond]
  have hline := (raiseCond_line .duplicate { s.core with line := silence s.core.line }).trans
    (settle_line (intervalOf s) { s with core := raiseCond .duplicate { s.core with line := silence s.core.line } })
  obtain ⟨htx, htimer⟩ := silence_silent s.core.line
  refine ⟨raiseCond_active .duplicate { s.core with line := silence s.core.line },
    (hline.silent (by rw [htx]; decide)).trans htx, hline.duplicate.trans htimer, fun hp => ?_, fun hn => ?_⟩
  · exact hline.pending (by rw [silence_pending]; exact hp)
  · have hentered : silence s.core.line = { s.core.line with
        tx := .silent, silence := .duplicate, restTimer := none, aborts := 0, holdOff := none,
        duplicateTimer := some 0 } := if_neg hn
    rw [hline.silence, hline.rest, hline.aborts, hline.holdOff, hentered]
    exact ⟨rfl, rfl, rfl, rfl⟩

/-! ## Receipt and noise (R112 to R114) -/

/-- What the receiver leaves of a frame it discards. -/
theorem exec_noise {c : Instr} (h : c = .stray ∨ ∃ f, c = .discardedFrame f ∧ frameIntact f = false) (hlive : Live s) :
    exec c s = .next (settle (intervalOf s) (onBlocks discard s)) := by
  obtain rfl | ⟨f, rfl, hf⟩ := h
  · exact exec_live rfl hlive
  · rw [exec_live rfl hlive]
    exact congrArg (fun t => Host.Outcome.next (settle (intervalOf s) t)) (takeFrame_noise f s hf)

/-- An intact frame of another kind changes nothing. -/
theorem work_id (s : State) :
    (work id s).env = s.env ∧ (work id s).slot = s.slot ∧ (work id s).core.axes = s.core.axes
      ∧ (work id s).core.stow = s.core.stow ∧ (work id s).core.heat = s.core.heat ∧ (work id s).core.fee = s.core.fee
      ∧ (work id s).core.cond = s.core.cond ∧ LineSame s.core.line (work id s).core.line := by
  unfold work
  split
  · exact ⟨rfl, rfl, rfl, rfl, rfl, rfl, rfl, .refl _⟩
  · exact ⟨rfl, rfl, settle_axes .., settle_stow .., settle_heat .., settle_fee .., settle_cond .., settle_line ..⟩

/-- Settles O34. -/
theorem noiseIsCounted : Obligations.NoiseIsCounted := by
  refine ⟨fun f s hf => ⟨fun hk => ?_, fun hk => ?_, fun hb ho => ?_⟩,
    fun console tag scope number kind args c s hc => ?_,
    fun c s hc hlive hr hd => ?_⟩
  · rw [exec_work rfl, exec_work rfl, work, work]
    exact congrArg Host.Outcome.next (if_congr Iff.rfl rfl (congrArg (settle _) (takeFrame_beacon f s hf hk)))
  · rw [exec_work rfl, exec_work rfl, work, work]
    exact congrArg Host.Outcome.next (if_congr Iff.rfl rfl (congrArg (settle _) (takeFrame_order f s hf hk)))
  · have hwork : work (workOf (.discardedFrame f)) s = work id s := by
      rw [work, work]
      exact if_congr Iff.rfl rfl (congrArg (settle _) (takeFrame_other f s hf hb ho))
    obtain ⟨henv, hslot, haxes, hstow, hheat, hfee, hcond, hline⟩ := work_id s
    refine ⟨work id s, ?_, henv, hslot, haxes, hstow, hheat, hfee, hcond, hline.noise, hline.isolation⟩
    rw [exec_work rfl, hwork]
  · have hrow : rowOf (.undefinedOrderKind console (tag :: scope :: number :: kind :: args)) = c := by
      have hkind : kindAt (tag :: scope :: number :: kind :: args) = kind := rfl
      have horder : orderAt console (tag :: scope :: number :: kind :: args) =
          { console := console, tag := tag, scope := scope, number := number, args := args } := rfl
      simp only [rowOf, rowOfPayload, hkind, horder, hc, Option.getD_some]
    rw [← exec_rowOf, hrow]
  · refine ⟨_, exec_noise hc hlive, ?_⟩
    have hcore : (onBlocks discard s).core = countNoise s.core := discard_heard hr hd
    have hline := (countNoise_line s.core).trans (hcore ▸ settle_line (intervalOf s) (onBlocks discard s))
    obtain ⟨-, -, -, hfee⟩ := countNoise_blocks s.core
    rw [settle_cond, settle_fee, hcore]
    refine ⟨hline.noise, fun hn => ?_, rfl, rfl, hfee, hline.isolation⟩
    rw [countNoise_many hn]
    exact raiseCond_active ..

/-! ## A transmission begins (R105, R107, R121) -/

/-- The line port at the first start level of an own beacon. -/
def onAir (e : Env) (a : SecA) (slot : ResultSlot) (p : Priority) (k : Core) : LinePort :=
  { k.line with tx := .arbitrating, pending := none, frame := some (assemble e a slot p k) }

/-- An assembled frame holds the beacon as the blocks stand, with its CRC and its notices (R107, R121). -/
theorem assemble_fields (e : Env) (a : SecA) (slot : ResultSlot) (p : Priority) (k : Core) :
    (assemble e a slot p k).payload = encodeBeacon (beaconOf e a slot k) ∧ (assemble e a slot p k).priority = p
      ∧ (assemble e a slot p k).crc = beaconCrc a p (assemble e a slot p k).payload
      ∧ (assemble e a slot p k).notices = k.cond.notices := by
  simp [assemble]

/-- Settles O35. -/
theorem transmissionTakesBeacon : Obligations.TransmissionTakesBeacon := by
  intro gap a p s hlive ha hconf htx hp hgap
  have hwork : workOf (.transmissionStart gap) s =
      { s with core := { s.core with line := onAir s.env a s.slot p s.core } } := by
    have hneed : gapNeeded s.core.line ≤ gap := hgap
    simp only [workOf, onBlocks, startTransmission, ha, hp, hconf, htx, hneed, true_and, if_true]
    rfl
  obtain ⟨hpending, htx'⟩ := settle_quiet (s := s) (k := { s.core with line := onAir s.env a s.slot p s.core }) rfl rfl
  refine ⟨_, exec_core rfl hlive hwork, htx', hpending, ?_, settle_axes .., settle_cond .., _, settle_frame ..,
    assemble_fields ..⟩
  rw [settle_outputs]
  show driving _ = true
  rw [driving, htx']
  rfl

/-! ## Backing off (R107, R108, R110) -/

/-- A frame in flight goes back to a pending request. -/
theorem repend_some {l : LinePort} {f : Frame} (h : l.frame = some f) :
    (repend l).frame = none ∧ (repend l).pending.isSome = true ∧ (repend l).aborts = l.aborts := by
  unfold repend
  rw [h]
  exact ⟨rfl, rfl, rfl⟩

/-- Settles O36. -/
theorem transmitterBacksOff : Obligations.TransmitterBacksOff := by
  intro s f hlive hf
  obtain ⟨hframe, hpending, haborts⟩ := repend_some hf
  refine ⟨fun word htx hloses => ?_, fun htx => ?_, fun htx => ?_⟩
  · have hwork : workOf (.lostArbitration word) s =
        { s with core := { s.core with line := { repend s.core.line with tx := .gap } } } := by
      simp only [workOf, onBlocks, loseArbitration, htx, hloses, true_and, if_true]
    have hline := settle_line (intervalOf s) { s with core :=
        { s.core with line := { repend s.core.line with tx := .gap } } }
    refine ⟨_, exec_core rfl hlive hwork, hline.silent nofun, (settle_frame ..).trans hframe, hline.pending hpending,
      settle_cond ..⟩
  · have hwork : workOf .abort s = { s with core := { s.core with line := { s.core.line with tx := .aborting } } } := by
      obtain htx | htx := htx <;> simp only [workOf, onBlocks, beginBreak, htx]
    have hline := settle_line (intervalOf s) { s with core :=
        { s.core with line := { s.core.line with tx := .aborting } } }
    exact ⟨_, exec_core rfl hlive hwork, hline.silent nofun, (settle_frame ..).trans hf⟩
  · rcases Nat.lt_or_ge (s.core.line.aborts + 1) 16 with hfew | hmany
    · have hlimit : s.core.line.aborts + 1 < abortLimit := hfew
      have hwork : workOf .breakEnd s = { s with core := { s.core with line :=
          { repend s.core.line with tx := .gap, aborts := s.core.line.aborts + 1 } } } := by
        simp only [workOf, onBlocks, endBreak, htx, hlimit, if_true]
      have hline := settle_line (intervalOf s) { s with core := { s.core with line :=
          { repend s.core.line with tx := .gap, aborts := s.core.line.aborts + 1 } } }
      exact ⟨_, exec_core rfl hlive hwork, (settle_frame ..).trans hframe, hline.pending hpending,
        fun _ => ⟨hline.silent nofun, hline.aborts⟩, fun hn => absurd hfew (Nat.not_lt.mpr hn)⟩
    · have hlimit : ¬s.core.line.aborts + 1 < abortLimit := Nat.not_lt.mpr hmany
      have hwork : workOf .breakEnd s = { s with core := raiseCond .txFault { s.core with line :=
          { repend s.core.line with
            tx := .resting, aborts := abortLimit, restTimer := some 0, abortedCrc := flightCrc s.core.line } } } := by
        simp only [workOf, onBlocks, endBreak, htx, hlimit, if_true, if_false]
      have hline := (raiseCond_line .txFault { s.core with line :=
          { repend s.core.line with
            tx := .resting, aborts := abortLimit, restTimer := some 0, abortedCrc := flightCrc s.core.line } }).trans
        (settle_line (intervalOf s) { s with core := raiseCond .txFault { s.core with line :=
          { repend s.core.line with
            tx := .resting, aborts := abortLimit, restTimer := some 0, abortedCrc := flightCrc s.core.line } } })
      have hcrc : flightCrc s.core.line = f.crc := by rw [flightCrc, hf]
      refine ⟨_, exec_core rfl hlive hwork, ?_, hline.pending hpending, fun hn => absurd hn (Nat.not_lt.mpr hmany),
        fun _ => ⟨hline.silent nofun, hline.rest, hline.crc.trans hcrc, ?_⟩⟩
      · exact Option.isNone_iff_eq_none.mp (by simpa [hframe] using hline.frame)
      · rw [settle_cond]
        exact raiseCond_active ..

/-! ## The line port's timers (R111, R113, R115, R117, R118) -/

theorem rest_ends (hlive : Live s) (htx : s.core.line.tx = .resting) (hx : expired s.core.line.restTimer 1000 = true) :
    ∃ t, exec .restTimerExpiry s = .next t ∧ t.core.line.aborts = 0 ∧ t.core.line.restTimer = none
      ∧ t.core.line.holdOff = some (s.core.line.abortedCrc.toNat % 256)
      ∧ t.core.line.tx = (if s.core.line.pending.isSome = true then .gap else .idle) := by
  have hrest : expired s.core.line.restTimer restMs = true := hx
  have hwork : workOf .restTimerExpiry s = { s with core := { s.core with line := { s.core.line with
      aborts := 0, holdOff := some (s.core.line.abortedCrc.toNat % 256), restTimer := none,
      tx := if s.core.line.pending.isSome then .gap else .idle } } } := by
    simp only [workOf, onBlocks, endRest, htx, hrest, true_and, if_true]
  have hline := settle_line (intervalOf s) { s with core := { s.core with line := { s.core.line with
      aborts := 0, holdOff := some (s.core.line.abortedCrc.toNat % 256), restTimer := none,
      tx := if s.core.line.pending.isSome then .gap else .idle } } }
  obtain ⟨-, htx'⟩ := settle_quiet (s := s) (k := { s.core with line := { s.core.line with
      aborts := 0, holdOff := some (s.core.line.abortedCrc.toNat % 256), restTimer := none,
      tx := if s.core.line.pending.isSome then .gap else .idle } }) rfl rfl
  exact ⟨_, exec_core rfl hlive hwork, hline.aborts, hline.rest, hline.holdOff, htx'⟩

/-- The blocks as the duplicate timer's expiry leaves them, before the admission test (R115). -/
def unsilenced (k : Core) : Core :=
  request .normal
    (endCond .duplicate { k with line := { k.line with duplicateTimer := none, silence := .none, tx := .idle } })

theorem unsilenced_line (k : Core) : (unsilenced k).line = requestOn .normal
    { k.line with duplicateTimer := none, silence := .none, tx := .idle } := by
  unfold unsilenced
  rw [request_line, endCond_line]

theorem unsilenced_cond (k : Core) : ¬condAt (unsilenced k).cond .duplicate = .active :=
  endCond_notActive .duplicate { k with line := { k.line with duplicateTimer := none, silence := .none, tx := .idle } }

theorem duplicate_ends (hlive : Live s) (hx : expired s.core.line.duplicateTimer 30000 = true) :
    ∃ t, exec .duplicateTimerExpiry s = .next t ∧ t.core.line.silence = .none ∧ t.core.line.tx = .gap
      ∧ t.core.line.pending.isSome = true ∧ t.core.line.duplicateTimer = none
      ∧ ¬condAt t.core.cond .duplicate = .active := by
  have hexpired : expired s.core.line.duplicateTimer duplicateMs = true := hx
  have hwork : workOf .duplicateTimerExpiry s = { s with core := testAdmission s.env (unsilenced s.core) } := by
    simp only [workOf, onBlocks, endDuplicate, hexpired, if_true]
    rfl
  have hsame : Same true (unsilenced s.core) (testAdmission s.env (unsilenced s.core)) := (Same.refl _).testAdmission
  have hline := hsame.line.trans (settle_line (intervalOf s) { s with core := testAdmission s.env (unsilenced s.core) })
  rw [unsilenced_line] at hline
  refine ⟨_, exec_core rfl hlive hwork, hline.silence, hline.silent nofun, hline.pending rfl, hline.duplicate, ?_⟩
  rw [settle_cond]
  show ¬condAt (testAdmission s.env (unsilenced s.core)).cond .duplicate = .active
  rw [hsame.conds .duplicate rfl]
  exact unsilenced_cond _

theorem isolation_begins (hlive : Live s)
    (hx : expired s.core.line.isolationTimer (s.env.setup.secC.isolation * 1000) = true) :
    ∃ t, exec .isolationTimerExpiry s = .next t ∧ condAt t.core.cond .isolated = .active
      ∧ t.core.stow.causes = { s.core.stow.causes with isolation := true } ∧ t.core.line.isolationTimer = none := by
  let k1 := raiseCond .isolated { s.core with line := { s.core.line with isolationTimer := none } }
  have hwork : workOf .isolationTimerExpiry s =
      { s with core := updateCauses s.env { k1.stow.causes with isolation := true } k1 } := by
    simp only [workOf, onBlocks, endIsolation, hx, if_true]
    rfl
  have hsame := updateCauses_same (e := s.env) { k1.stow.causes with isolation := true } k1
  have hline := (raiseCond_line .isolated { s.core with line := { s.core.line with isolationTimer := none } }).trans
    (hsame.line.trans (settle_line (intervalOf s)
      { s with core := updateCauses s.env { k1.stow.causes with isolation := true } k1 }))
  have hcauses : k1.stow.causes = s.core.stow.causes := raiseCond_causes ..
  refine ⟨_, exec_core rfl hlive hwork, ?_, ?_, hline.isolation⟩
  · rw [settle_cond]
    exact (hsame.conds .isolated rfl).trans (raiseCond_active ..)
  · rw [settle_stow]
    refine (updateCauses_causes ..).trans ?_
    rw [hcauses]

theorem beacon_due (hlive : Live s) (hx : intervalReached s.env s.core = true) (hd : s.core.line.dueTaken = false) :
    ∃ t, exec .beaconIntervalDue s = .next t ∧ t.core.line.pending.isSome = true ∧ ¬t.core.line.tx = .idle
      ∧ t.core.cond = s.core.cond := by
  have hwork : workOf .beaconIntervalDue s =
      { s with core := request .normal { s.core with line := { s.core.line with dueTaken := true } } } := by
    simp only [workOf, onBlocks, takeDue, hx, hd, true_and, if_true]
  obtain ⟨hp, ht⟩ := request_pending .normal { s.core with line := { s.core.line with dueTaken := true } }
  obtain ⟨hp', ht'⟩ := (settle_line (intervalOf s)
    { s with core := request .normal { s.core with line := { s.core.line with dueTaken := true } } }).requested hp ht
  exact ⟨_, exec_core rfl hlive hwork, hp', ht', settle_cond ..⟩

/-- The line port a second of silence later. -/
def quieter (k : Core) : Core :=
  { k with line := { k.line with noise := k.line.noise - 1, noiseClock := k.line.noiseClock - secondMs } }

theorem decayNoise_eq (k : Core) :
    decayNoise k = if k.line.noise - 1 = 0 then endCond .lineNoise (quieter k) else quieter k := rfl

theorem noise_decays (hlive : Live s) :
    ∃ t, exec .noiseDecay s = .next t ∧ t.core.line.noise = s.core.line.noise - 1
      ∧ (s.core.line.noise ≤ 1 → ¬condAt t.core.cond .lineNoise = .active) ∧ t.core.axes = s.core.axes := by
  have hblocks : (decayNoise s.core).line = (quieter s.core).line ∧ (decayNoise s.core).axes = s.core.axes := by
    rw [decayNoise_eq]
    split
    · exact ⟨endCond_line .., endCond_axes ..⟩
    · exact ⟨rfl, rfl⟩
  obtain ⟨hl, haxes⟩ := hblocks
  have hline := settle_line (intervalOf s) { s with core := decayNoise s.core }
  refine ⟨_, exec_core rfl hlive rfl, hline.noise.trans (congrArg LinePort.noise hl), fun hn => ?_,
    (settle_axes ..).trans haxes⟩
  rw [settle_cond]
  show ¬condAt (decayNoise s.core).cond .lineNoise = .active
  rw [decayNoise_eq, if_pos (by omega)]
  exact endCond_notActive _ _

/-- Settles O37. -/
theorem lineTimersRunOut : Obligations.LineTimersRunOut := fun _ hlive =>
  ⟨rest_ends hlive, duplicate_ends hlive, isolation_begins hlive, beacon_due hlive, noise_decays hlive⟩

/-! ## A complete beacon (R109, R120, R150) -/

/-- The blocks after an own beacon's end. -/
def beaconServed (e : Env) (f : Frame) (k : Core) : Core :=
  { endCond .txFault k with
    line :=
      { k.line with
        aborts := 0, beaconTimer := some 0, dueTaken := false, holdOff := none, frame := none,
        tx := if k.line.pending.isSome then .gap else .idle }
    cond := { (endCond .txFault k).cond with notices := k.cond.notices &&& ~~~f.notices }
    fee := { k.fee with claim := noteAnnounced e.now f k.fee.claim } }

theorem completeBeacon_eq {f : Frame} (hf : k.line.frame = some f)
    (htx : k.line.tx = .arbitrating ∨ k.line.tx = .sending) :
    completeBeacon e k = beaconServed e f k := by
  unfold completeBeacon
  simp only [hf, htx, if_true, endCond_line, endCond_fee, endCond_notices]
  rfl

theorem noteAnnounced_state (now : Nat) (f : Frame) (c : Claim) : (noteAnnounced now f c).state = c.state := by
  unfold noteAnnounced
  split <;> rfl

/-- Settles O38. -/
theorem completeBeaconServes : Obligations.CompleteBeaconServes := by
  intro s f hlive hf htx
  have hwork : workOf .beaconComplete s = { s with core := beaconServed s.env f s.core } := by
    rw [← completeBeacon_eq hf htx]
    rfl
  have hline := settle_line (intervalOf s) { s with core := beaconServed s.env f s.core }
  obtain ⟨-, htx'⟩ := settle_quiet (s := s) (k := beaconServed s.env f s.core) (endCond_stow ..)
    (noteAnnounced_state ..)
  refine ⟨_, exec_core rfl hlive hwork, hline.aborts, hline.beacon, hline.holdOff, settle_frame .., ?_, ?_, htx',
    fun hp hs ha => ?_⟩
  · rw [settle_cond]
    exact endCond_notActive .txFault s.core
  · rw [settle_cond]
    rfl
  · rw [settle_fee]
    show (noteAnnounced s.env.now f s.core.fee.claim).announced = _
    rw [noteAnnounced, if_pos ⟨hp, hs⟩, ha]
    rfl

end Sys2Proof.Machine
end

section
/-! PROOFS. The axes' events: entry to FAULT and its causes (R5, R7, R15, R17), brake feedback, idle braking, encoder recovery and on-source (R3, R4, R8, R16, R18). -/

namespace Sys2Proof.Machine

variable {e : Env} {k : Core} {s : State}

/-! ## Entry to FAULT (R5) -/

theorem motion_withdrawWaiting (k : Core) (i : Axis) : getAxis (withdrawWaiting e k) i = getAxis k i := by
  obtain ⟨haxes, -⟩ := withdrawWaiting_blocks e k
  exact getAxis_of_axes haxes i

theorem setStow_motion (n : StowState) (k : Core) (i : Axis) :
    motion (getAxis (setStow n k) i) = motion (getAxis k i) :=
  ((Same.refl k).setStow n).axis i

theorem heldAxis_state (idle : Option Nat) (r : AxisRec) : (heldAxis idle r).state = r.state := by
  unfold heldAxis
  split <;> rfl

theorem otherAxis_otherAxis (i : Axis) : otherAxis (otherAxis i) = i := by cases i <;> rfl

theorem takeHold_back (i : Axis) (k : Core) : getAxis (takeHold (otherAxis i) k) i = getAxis k i := by
  have h := takeHold_other (otherAxis i) k
  rwa [otherAxis_otherAxis] at h

theorem clearPending_back (i : Axis) (k : Core) : getAxis (clearPending (otherAxis i) k) i = getAxis k i := by
  have h := clearPending_other (otherAxis i) k
  rwa [otherAxis_otherAxis] at h

/-- An axis's fault leaves its own record to the stow unit's change alone, and the other axis its state. -/
theorem stowAxisFault_axes (i : Axis) (k : Core) :
    motion (getAxis (stowAxisFault i k) i) = motion (getAxis k i)
      ∧ (getAxis (stowAxisFault i k) (otherAxis i)).state = (getAxis k (otherAxis i)).state := by
  have hold : motion (getAxis (takeHold (otherAxis i) k) i) = motion (getAxis k i)
      ∧ (getAxis (takeHold (otherAxis i) k) (otherAxis i)).state = (getAxis k (otherAxis i)).state := by
    rw [takeHold_back, takeHold_axis]
    exact ⟨rfl, heldAxis_state ..⟩
  have failed : motion (getAxis (setStow .failed (takeHold (otherAxis i) k)) i) = motion (getAxis k i)
      ∧ (getAxis (setStow .failed (takeHold (otherAxis i) k)) (otherAxis i)).state = (getAxis k (otherAxis i)).state :=
    ⟨(setStow_motion ..).trans hold.1, (motion_state (setStow_motion ..)).trans hold.2⟩
  unfold stowAxisFault
  split
  · split
    · exact hold
    · exact ⟨rfl, rfl⟩
  · exact failed
  · exact failed
  · exact ⟨setStow_motion .., motion_state (setStow_motion ..)⟩
  · exact ⟨rfl, rfl⟩

/-- An axis that enters FAULT is reset to its reading, and the other axis keeps its state (R5). -/
theorem faultAxis_axes {i : Axis} (h : ¬(getAxis k i).state = .fault) :
    motion (getAxis (faultAxis e i k) i) = motion (faultedAxis (getAxis k i))
      ∧ (getAxis (faultAxis e i k) (otherAxis i)).state = (getAxis k (otherAxis i)).state := by
  unfold faultAxis
  rw [if_neg h]
  simp only []
  have hown : getAxis (endRange i (putAxis k i (faultedAxis (getAxis k i)))) i = faultedAxis (getAxis k i) := by
    rw [endRange_axis, getAxis_putAxis]
  have hother : getAxis (endRange i (putAxis k i (faultedAxis (getAxis k i)))) (otherAxis i) =
      getAxis k (otherAxis i) := by
    rw [endRange_axis, getAxis_putAxis_other]
  obtain ⟨hm, hs⟩ := stowAxisFault_axes i (endRange i (putAxis k i (faultedAxis (getAxis k i))))
  rw [hown] at hm
  rw [hother] at hs
  refine ⟨((syncStowFailed_same _).axis i).trans ?_, (motion_state ((syncStowFailed_same _).axis _)).trans ?_⟩
  · rw [motion_withdrawWaiting, clearPending_back]
    exact hm
  · rw [motion_withdrawWaiting, clearPending_axis, unpended_state]
    exact hs

theorem faultedAxis_motion {r r' : AxisRec} (h : motion r' = motion r) :
    motion (faultedAxis r') = motion (faultedAxis r) := by
  have heq := congrArg (fun r : AxisRec => motion (faultedAxis r)) h
  exact heq

/-- A fault cause raises its condition and puts its axis in FAULT. -/
theorem axisCause_effect {i : Axis} {c : Cond} (hc : looseCond false c = false) (h : ¬(getAxis k i).state = .fault) :
    motion (getAxis (axisCause e c i k) i) = motion (faultedAxis (getAxis k i))
      ∧ condAt (axisCause e c i k).cond c = .active := by
  have hm := raiseCond_motion c k i
  have hn : ¬(getAxis (raiseCond c k) i).state = .fault := by
    rw [motion_state hm]
    exact h
  obtain ⟨hfault, -⟩ := faultAxis_axes (e := e) hn
  refine ⟨hfault.trans (faultedAxis_motion hm), ?_⟩
  exact (((Same.refl (raiseCond c k)).faultAxis (e := e) i).conds c hc).trans (raiseCond_active ..)

/-- What a settled command leaves of an axis and a condition. -/
theorem settle_axis (old : Nat) (s : State) (i : Axis) : getAxis (settle old s).core i = getAxis s.core i :=
  getAxis_of_axes (settle_axes ..) i

section
variable {i : Axis} (hlive : Live s) (hf : ¬(getAxis s.core i).state = .fault)
include hlive hf

theorem follow_faults (h : 500 ≤ (getAxis s.core i).followTimer) :
    ∃ t, exec (.followTimeout i) s = .next t ∧ motion (getAxis t.core i) = motion (faultedAxis (getAxis s.core i))
      ∧ condAt t.core.cond (.follow i) = .latched := by
  obtain ⟨hm, hc⟩ := axisCause_effect (e := s.env) (c := .follow i) rfl hf
  have hwork : workOf (.followTimeout i) s =
      { s with core := endCond (.follow i) (axisCause s.env (.follow i) i s.core) } := by
    have hp : persistMs ≤ (getAxis s.core i).followTimer := h
    simp only [workOf, onBlocks, followTimeout, hp, if_true]
  refine ⟨_, exec_core rfl hlive hwork, ?_, ?_⟩
  · rw [settle_axis, ← hm]
    exact congrArg motion (getAxis_of_axes (endCond_axes ..) i)
  · rw [settle_cond]
    exact (endCond_own ..).trans (if_pos hc)

theorem brake_faults (h : brakeExpired (getAxis s.core i) = true) :
    ∃ t, exec (.brakeTimeout i) s = .next t ∧ motion (getAxis t.core i) = motion (faultedAxis (getAxis s.core i))
      ∧ condAt t.core.cond (.brake i) = .active := by
  obtain ⟨hm, hc⟩ := axisCause_effect (e := s.env) (c := .brake i) rfl hf
  have hwork : workOf (.brakeTimeout i) s = { s with core := axisCause s.env (.brake i) i s.core } := by
    simp only [workOf, onBlocks, brakeTimeout, h, if_true]
  refine ⟨_, exec_core rfl hlive hwork, ?_, ?_⟩
  · rw [settle_axis]
    exact hm
  · rw [settle_cond]
    exact hc

theorem mismatch_faults (h : 500 ≤ (getAxis s.core i).mismatchTimer) :
    ∃ t, exec (.brakeMismatch i) s = .next t ∧ motion (getAxis t.core i) = motion (faultedAxis (getAxis s.core i))
      ∧ condAt t.core.cond (.brake i) = .active := by
  obtain ⟨hm, hc⟩ := axisCause_effect (e := s.env) (c := .brake i) rfl hf
  have hwork : workOf (.brakeMismatch i) s = { s with core := axisCause s.env (.brake i) i s.core } := by
    have hp : persistMs ≤ (getAxis s.core i).mismatchTimer := h
    simp only [workOf, onBlocks, brakeMismatch, hp, if_true]
  refine ⟨_, exec_core rfl hlive hwork, ?_, ?_⟩
  · rw [settle_axis]
    exact hm
  · rw [settle_cond]
    exact hc

theorem limit_faults (upper : Bool) :
    ∃ t, exec (.limitSwitch i upper) s = .next t ∧ motion (getAxis t.core i) = motion (faultedAxis (getAxis s.core i))
      ∧ condAt t.core.cond (.limit i) = .active ∧ limitActive t.env i = true := by
  obtain ⟨hm, hc⟩ := axisCause_effect (e := (withInputs (withLimit i upper true s.env.inputs) s).env)
    (c := .limit i) rfl hf
  refine ⟨_, exec_live rfl hlive, ?_, ?_, ?_⟩
  · rw [settle_axis]
    exact hm
  · rw [settle_cond]
    exact hc
  · show limitActive (withInputs (withLimit i upper true s.env.inputs) s).env i = true
    cases i <;> cases upper <;> simp [limitActive, withInputs, withLimit]

end

/-- Settles O41. -/
theorem axisFaultCauses : Obligations.AxisFaultCauses := fun _ _ hlive hf =>
  ⟨follow_faults hlive hf, brake_faults hlive hf, mismatch_faults hlive hf, limit_faults hlive hf⟩

/-! ## The amplifier fault input (R17, R27) -/

/-- The amplifier fault on one axis. -/
def ampFaulted (e : Env) (i : Axis) (k : Core) : Core := if usesAmp (getAxis k i) then faultAxis e i k else k

theorem ampFaulted_states (e : Env) (i : Axis) (k : Core) :
    (getAxis (ampFaulted e i k) i).state = (if (getAxis k i).state = .braked then .braked else .fault)
      ∧ (getAxis (ampFaulted e i k) (otherAxis i)).state = (getAxis k (otherAxis i)).state := by
  unfold ampFaulted usesAmp ampEnabled
  cases hs : (getAxis k i).state with
  | braked => simp [hs]
  | fault => simp [hs]
  | _ =>
    obtain ⟨hm, ho⟩ := faultAxis_axes (e := e) (i := i) (k := k) (by rw [hs]; decide)
    simp only [if_true, reduceCtorEq, if_false]
    exact ⟨motion_state hm, ho⟩

theorem ampFaulted_same {k0 : Core} (i : Axis) (h : Same false k0 k) : Same false k0 (ampFaulted e i k) := by
  unfold ampFaulted
  split
  · exact h.faultAxis i
  · exact h

/-- The environment with the amplifier fault input asserted. -/
def ampAsserted (e : Env) : Env := { e with inputs := { e.inputs with ampFault := true } }

theorem ampFault_acts (h : ¬s.core.stow.park = .parked) : ampFault s =
    { s with
      env := ampAsserted s.env
      core := ampFaulted (ampAsserted s.env) .el (ampFaulted (ampAsserted s.env) .az
        (raiseCond .ampFault s.core)) } := by
  unfold ampFault
  rw [if_neg h]
  rfl

theorem ampFault_parked (h : s.core.stow.park = .parked) : ampFault s = s := if_pos h

/-- Settles O42. -/
theorem amplifierFaultStopsMovingAxes : Obligations.AmplifierFaultStopsMovingAxes := by
  intro s hlive
  refine ⟨fun hp => ⟨_, exec_live rfl hlive, ?_⟩, fun hp => ⟨_, exec_live rfl hlive, ?_⟩⟩
  · rw [settle_cond, settle_env, show workOf .ampFaultInput s = _ from ampFault_acts hp]
    refine ⟨?_, rfl, fun i => ?_⟩
    · exact ((ampFaulted_same .el (ampFaulted_same .az (Same.refl _))).conds .ampFault rfl).trans (raiseCond_active ..)
    · rw [settle_axis, ← motion_state (raiseCond_motion .ampFault s.core i)]
      show (getAxis (ampFaulted (ampAsserted s.env) .el
          (ampFaulted (ampAsserted s.env) .az (raiseCond .ampFault s.core))) i).state
        = _
      obtain ⟨haz, hel⟩ := ampFaulted_states (ampAsserted s.env) .az (raiseCond .ampFault s.core)
      obtain ⟨hown, hback⟩ := ampFaulted_states (ampAsserted s.env) .el
        (ampFaulted (ampAsserted s.env) .az (raiseCond .ampFault s.core))
      cases i with
      | az => exact hback.trans haz
      | el =>
        rw [hown]
        rw [show (getAxis (ampFaulted (ampAsserted s.env) .az (raiseCond .ampFault s.core)) .el).state = _ from hel]
        rfl
  · rw [settle_axes, settle_cond, settle_env, show workOf .ampFaultInput s = s from ampFault_parked hp]
    exact ⟨rfl, rfl, rfl⟩

/-! ## Brake feedback and the axis timers (R3, R4, R8, R16, R18) -/

section
variable {i : Axis} (hlive : Live s)
include hlive

theorem released_activates (hs : (getAxis s.core i).state = .unbraking) (hx : brakeExpired (getAxis s.core i) = false) :
    ∃ t, exec (.brakeReleasedFeedback i) s = .next t ∧ (getAxis t.core i).state = .active
      ∧ (getAxis t.core i).target = (getAxis s.core i).target ∧ (getAxis t.core i).brakeTimer = none
      ∧ (getAxis t.core i).followTimer = 0 ∧ (getAxis t.core i).x = (getAxis s.core i).x := by
  let e := (withInputs (withBrake i true s.env.inputs) s).env
  let k := putAxis s.core i (activeWith s.core (getAxis s.core i) (getAxis s.core i).target true)
  have hwork : workOf (.brakeReleasedFeedback i) s =
      { withInputs (withBrake i true s.env.inputs) s with core := testAdmission e k } := by
    have htake : takeReleased e i s.core = testAdmission e k := by
      unfold takeReleased
      exact if_pos ⟨hs, hx⟩
    rw [← htake]
    rfl
  have hm : motion (getAxis (testAdmission e k) i) = motion (getAxis k i) := ((Same.refl k).testAdmission).axis i
  rw [getAxis_putAxis] at hm
  refine ⟨_, exec_live rfl hlive, ?_⟩
  rw [hwork, settle_axis]
  have hstate := motion_state hm
  have htarget := motion_target hm
  have htimer := motion_brakeTimer hm
  have hfollow : (motion _).followTimer = (motion _).followTimer := congrArg AxisRec.followTimer hm
  have hposition := motion_x hm
  exact ⟨hstate, htarget, htimer, hfollow, hposition⟩

/-- Brake-engaged feedback in time: the axis is BRAKED, and a pending release is tried. -/
theorem engaged_work (hs : (getAxis s.core i).state = .stopping) (he : (getAxis s.core i).engaging = true)
    (hx : brakeExpired (getAxis s.core i) = false) :
    exec (.brakeEngagedFeedback i) s = .next (settle (intervalOf s) { withInputs (withBrake i false s.env.inputs) s with
      core := tryRelease (withInputs (withBrake i false s.env.inputs) s).env i
        (putAxis s.core i (engagedAxis (getAxis s.core i))) }) := by
  have htake : takeEngaged (withInputs (withBrake i false s.env.inputs) s).env i s.core =
      tryRelease (withInputs (withBrake i false s.env.inputs) s).env i
        (putAxis s.core i (engagedAxis (getAxis s.core i))) := by
    unfold takeEngaged
    exact if_pos ⟨hs, he, hx⟩
  rw [exec_live rfl hlive, ← htake]
  rfl

theorem engaged_brakes (hs : (getAxis s.core i).state = .stopping) (he : (getAxis s.core i).engaging = true)
    (hx : brakeExpired (getAxis s.core i) = false) (hp : (getAxis s.core i).releasePending = false) :
    ∃ t, exec (.brakeEngagedFeedback i) s = .next t ∧ (getAxis t.core i).state = .braked
      ∧ (getAxis t.core i).load = 0 ∧ (getAxis t.core i).duty = 500 ∧ ampEnabled (getAxis t.core i) = false := by
  refine ⟨_, engaged_work hlive hs he hx, ?_⟩
  have hstay (e : Env) : tryRelease e i (putAxis s.core i (engagedAxis (getAxis s.core i))) =
      putAxis s.core i (engagedAxis (getAxis s.core i)) := by
    refine if_neg fun ⟨_, hpend, _⟩ => ?_
    rw [getAxis_putAxis] at hpend
    exact absurd (hp.symm.trans hpend) (by decide)
  rw [hstay, settle_axis]
  show (getAxis (putAxis s.core i _) i).state = _ ∧ (getAxis (putAxis s.core i _) i).load = _
    ∧ (getAxis (putAxis s.core i _) i).duty = _ ∧ ampEnabled (getAxis (putAxis s.core i _) i) = _
  rw [getAxis_putAxis]
  exact ⟨rfl, rfl, rfl, rfl⟩

theorem engaged_releases (hs : (getAxis s.core i).state = .stopping) (he : (getAxis s.core i).engaging = true)
    (hx : brakeExpired (getAxis s.core i) = false) (hp : (getAxis s.core i).releasePending = true) :
    ∃ t, exec (.brakeEngagedFeedback i) s = .next t
      ∧ (releaseProhibited s.env s.core = true → (getAxis t.core i).state = .braked
        ∧ (getAxis t.core i).releasePending = true ∧ (getAxis t.core i).target = (getAxis s.core i).target)
      ∧ (releaseProhibited s.env s.core = false → s.env.inputs.ampFault = false →
        (getAxis t.core i).state = .unbraking ∧ (getAxis t.core i).releasePending = false
          ∧ (getAxis t.core i).target = (getAxis s.core i).target ∧ (getAxis t.core i).brakeTimer = some 0) := by
  refine ⟨_, engaged_work hlive hs he hx, ?_⟩
  let e := (withInputs (withBrake i false s.env.inputs) s).env
  let k := putAxis s.core i (engagedAxis (getAxis s.core i))
  have hpark : releaseProhibited e k = releaseProhibited e s.core := releaseProhibited_park rfl
  have hinputs : releaseProhibited e s.core = releaseProhibited s.env s.core := by
    unfold releaseProhibited posture
    rfl
  have hamp : e.inputs.ampFault = s.env.inputs.ampFault := by cases i <;> rfl
  have hget : getAxis k i = engagedAxis (getAxis s.core i) := getAxis_putAxis ..
  rw [settle_axis]
  show (_ → (getAxis (tryRelease e i k) i).state = _ ∧ (getAxis (tryRelease e i k) i).releasePending = _
      ∧ (getAxis (tryRelease e i k) i).target = _)
    ∧ (_ → _ → (getAxis (tryRelease e i k) i).state = _ ∧ (getAxis (tryRelease e i k) i).releasePending = _
      ∧ (getAxis (tryRelease e i k) i).target = _ ∧ (getAxis (tryRelease e i k) i).brakeTimer = _)
  refine ⟨fun hno => ?_, fun hfree ha => ?_⟩
  · have hstay : tryRelease e i k = k := if_neg fun ⟨_, _, hfree⟩ =>
      absurd ((hpark.trans (hinputs.trans hno)).symm.trans hfree) (by decide)
    rw [hstay, hget]
    exact ⟨rfl, hp, rfl⟩
  · have hgo : tryRelease e i k = enterUnbraking e i (getAxis k i).target k :=
      if_pos ⟨by rw [hget]; rfl, by rw [hget]; exact hp, hpark.trans (hinputs.trans hfree)⟩
    rw [hgo, enterUnbraking_free (hamp.trans ha), getAxis_putAxis, hget]
    exact ⟨rfl, rfl, rfl, rfl⟩

theorem idle_brakes (hs : (getAxis s.core i).state = .active)
    (hx : expired (getAxis s.core i).idleTimer (s.env.setup.secB.idleBrake * 1000) = true) :
    ∃ t, exec (.idleBrakeExpiry i) s = .next t ∧ (getAxis t.core i).state = .stopping
      ∧ (getAxis t.core i).target = .none ∧ (getAxis t.core i).engaging = decide ((getAxis s.core i).v = 0) := by
  have hwork : workOf (.idleBrakeExpiry i) s = { s with core := enterStopping i s.core } := by
    have hlimit : expired (getAxis s.core i).idleTimer (idleLimit s.env) = true := hx
    simp only [workOf, onBlocks, idleExpiry, hs, hlimit, true_and, if_true]
  refine ⟨_, exec_core rfl hlive hwork, ?_⟩
  rw [settle_axis]
  show (getAxis (enterStopping i s.core) i).state = _ ∧ (getAxis (enterStopping i s.core) i).target = _
    ∧ (getAxis (enterStopping i s.core) i).engaging = _
  rw [enterStopping_axis, stoppedAxis, if_pos (by simp [isMoving, hs])]
  exact ⟨rfl, rfl, rfl⟩

theorem encoder_recovers (hf : (getAxis s.core i).encoderFault = true) (hr : 10 ≤ (getAxis s.core i).recovery) :
    ∃ t, exec (.encoderRecovered i) s = .next t ∧ (getAxis t.core i).reading = (getAxis s.core i).answered
      ∧ (getAxis t.core i).encoderFault = false ∧ ¬condAt t.core.cond (.encoder i) = .active
      ∧ (getAxis t.core i).state = (getAxis s.core i).state := by
  let r : AxisRec := { getAxis s.core i with reading := (getAxis s.core i).answered, encoderFault := false }
  have hwork : workOf (.encoderRecovered i) s = { s with core := endCond (.encoder i) (putAxis s.core i r) } := by
    have hgood : goodReads ≤ (getAxis s.core i).recovery := hr
    simp only [workOf, onBlocks, recoverEncoder, hf, hgood, true_and, if_true]
    rfl
  have hget : getAxis (endCond (.encoder i) (putAxis s.core i r)) i = r :=
    (getAxis_of_axes (endCond_axes ..) i).trans (getAxis_putAxis ..)
  refine ⟨_, exec_core rfl hlive hwork, ?_⟩
  rw [settle_axis, settle_cond]
  show (getAxis (endCond (.encoder i) (putAxis s.core i r)) i).reading = _
    ∧ (getAxis (endCond (.encoder i) (putAxis s.core i r)) i).encoderFault = _ ∧ _
    ∧ (getAxis (endCond (.encoder i) (putAxis s.core i r)) i).state = _
  rw [hget]
  exact ⟨rfl, rfl, endCond_notActive _ _, rfl⟩

theorem onSource_set (h : 1000 ≤ s.core.axes.onSourceTimer) :
    ∃ t, exec .onSourceSet s = .next t ∧ t.core.axes = { s.core.axes with onSource := true } := by
  have hwork : workOf .onSourceSet s = { s with core :=
      { s.core with axes := { s.core.axes with onSource := true } } } := by
    have hms : onSourceMs ≤ s.core.axes.onSourceTimer := h
    simp only [workOf, onBlocks, setOnSource, hms, if_true]
  exact ⟨_, exec_core rfl hlive hwork, settle_axes ..⟩

end

/-- Settles O43. -/
theorem axisEventsComplete : Obligations.AxisEventsComplete := fun _ _ hlive =>
  ⟨released_activates hlive, engaged_brakes hlive, engaged_releases hlive, idle_brakes hlive, encoder_recovers hlive,
    onSource_set hlive⟩

end Sys2Proof.Machine
end

section
/-! PROOFS. The stow unit's events: pin inputs taken (R48, R54 to R56), the pin and release hold timers (R50, R54), the end of the wake settle time (R27, R66, R67). -/

namespace Sys2Proof.Machine

variable {e : Env} {k : Core} {s : State}

/-! ## Pin inputs (R48, R54 to R56) -/

theorem settlePinFeedback_stow (e : Env) (k : Core) : (settlePinFeedback e k).stow = k.stow := by
  unfold settlePinFeedback
  split
  · exact endCond_stow ..
  · rfl

theorem inWindow_of_reading {k' : Core} (h : k'.axes.el.reading = k.axes.el.reading) : inWindow k' = inWindow k := by
  unfold inWindow
  rw [h]

theorem inWindow_settlePin (e : Env) (k : Core) : inWindow (settlePinFeedback e k) = inWindow k :=
  inWindow_of_reading (by rw [settlePinFeedback_axes])

/-- The pin is in a defined position by its inputs taken and the window (R48). -/
theorem pinDefined_eq (e : Env) (k : Core) :
    pinDefined e k = (pinEngaged e && !pinRetracted e && inWindow k || pinRetracted e && !pinEngaged e) := rfl

/-- A pin fault (R54): FAILED, the pin off, and PIN_FEEDBACK with its cause unless the pin is in a defined position. -/
theorem pinFault_effect (h : ¬k.stow.state = .failed) :
    (pinFault e k).stow.state = .failed ∧ (pinFault e k).stow.pin = .off ∧ (pinFault e k).stow.pinTimer = none
      ∧ ¬condAt (pinFault e k).cond .pinFeedback = .clear
      ∧ (pinDefined e k = false → condAt (pinFault e k).cond .pinFeedback = .active)
      ∧ ∀ i, motion (getAxis (pinFault e k) i) = motion (getAxis k i) := by
  have hraised : ¬(raiseCond .pinFeedback k).stow.state = .failed := by rwa [raiseCond_state]
  obtain ⟨hpin, htimer⟩ := setStow_pin (n := .failed) hraised
  have hactive : condAt (setStow .failed (raiseCond .pinFeedback k)).cond .pinFeedback = .active :=
    (((Same.refl (m := true) _).setStow .failed).conds .pinFeedback rfl).trans (raiseCond_active ..)
  have hmotion (i : Axis) : motion (getAxis (setStow .failed (raiseCond .pinFeedback k)) i) = motion (getAxis k i) :=
    (setStow_motion ..).trans (raiseCond_motion ..)
  have hwindow : inWindow (setStow .failed (raiseCond .pinFeedback k)) = inWindow k :=
    inWindow_of_reading (motion_reading (hmotion .el))
  have hdefined : pinDefined e (setStow .failed (raiseCond .pinFeedback k)) = pinDefined e k := by
    rw [pinDefined_eq, pinDefined_eq, hwindow]
  have hstow : (pinFault e k).stow = (setStow .failed (raiseCond .pinFeedback k)).stow := settlePinFeedback_stow ..
  refine ⟨?_, ?_, ?_, ?_, fun hn => ?_, fun i => ?_⟩
  · rw [hstow, setStow_state]
  · rw [hstow]
    exact hpin
  · rw [hstow]
    exact htimer
  · unfold pinFault settlePinFeedback
    split
    · rw [endCond_own, if_pos hactive]
      decide
    · rw [hactive]
      decide
  · have hstay : pinFault e k = setStow .failed (raiseCond .pinFeedback k) :=
      if_neg (by rw [hdefined, hn]; decide)
    rw [hstay]
    exact hactive
  · exact (congrArg motion (getAxis_of_axes (settlePinFeedback_axes _) i)).trans (hmotion i)

theorem enterStowed_effect (h : ¬k.stow.state = .stowed) :
    (enterStowed k).stow.state = .stowed ∧ (enterStowed k).stow.pin = .off
      ∧ ∀ i, AtRest (getAxis (enterStowed k) i) := by
  obtain ⟨hpin, -⟩ := setStow_pin h
  have hstow : (enterStowed k).stow = (setStow .stowed k).stow := by
    rw [enterStowed, enterStopping_stow, enterStopping_stow]
  refine ⟨enterStowed_state k, by rw [hstow]; exact hpin, fun i => ?_⟩
  rw [enterStowed, enterStopping_both]
  exact stoppedAxis_atRest _

/-- The pin tests by the stow state (R54 to R56). -/
theorem pinTests_cases (e : Env) (k : Core) :
    (k.stow.state = .pinning → pinEngaged e = true → pinRetracted e = false → inWindow k = true →
        pinTests e k = enterStowed k)
      ∧ (k.stow.state = .releasing → pinRetracted e = true → pinEngaged e = false → pinTests e k = setStow .clear k)
      ∧ (pinEngaged e = true →
          (k.stow.state = .pinning ∧ (pinRetracted e = true ∨ inWindow k = false))
            ∨ (k.stow.state = .stowed ∧ inWindow k = false) ∨ (k.stow.state = .releasing ∧ pinRetracted e = true) →
          pinTests e k = pinFault e k)
      ∧ (k.stow.state = .stowed → pinEngaged e = false →
          pinTests e k = setStow (if blocking e.list then .blocked else .pinning) k) := by
  refine ⟨fun hs he hr hw => ?_, fun hs hr he => ?_, fun he hc => ?_, fun hs he => ?_⟩
  · simp [pinTests, hs, he, hr, hw]
  · simp [pinTests, hs, hr, he]
  · obtain ⟨hs, hr | hw⟩ | ⟨hs, hw⟩ | ⟨hs, hr⟩ := hc
    · simp [pinTests, hs, he, hr]
    · simp [pinTests, hs, he, hw]
    · simp [pinTests, hs, he, hw]
    · simp [pinTests, hs, he, hr]
  · simp [pinTests, hs, he]

/-- A pin input whose filter has run is taken, with the other one where it is ready too. -/
theorem takePin_ready {p : PinInput} (h : 50 ≤ (pinFilter s.env.inputs p).held) : takePin p s =
    let u := withInputs (takePinFilters s.env.inputs) s
    { u with
      core := if u.env.setup.configured then pinTests u.env (settlePinFeedback u.env s.core)
        else settlePinFeedback u.env s.core } := by
  have hready : filterReady pinFilterMs (pinFilter s.env.inputs p) = true := decide_eq_true h
  unfold takePin
  rw [if_pos hready]
  rfl

theorem pinFilter_taken {p : PinInput} {n : Inputs} (h : 50 ≤ (pinFilter n p).held) :
    (pinFilter (takePinFilters n) p).taken = some (pinFilter n p).level := by
  have htake (f : Filter) (hf : 50 ≤ f.held) : (takeFilter f).taken = some f.level := by
    have hready : filterReady pinFilterMs f = true := decide_eq_true hf
    unfold takeFilter
    rw [if_pos hready]
  cases p
  · exact htake _ h
  · exact htake _ h

/-- Settles O44. -/
theorem pinInputIsTaken : Obligations.PinInputIsTaken := by
  intro p s hlive hheld
  refine ⟨_, exec_live rfl hlive, ?_⟩
  rw [show workOf (.pinInputTaken p) s = _ from takePin_ready hheld]
  let u := withInputs (takePinFilters s.env.inputs) s
  let k := settlePinFeedback u.env s.core
  have hstate : k.stow.state = s.core.stow.state := congrArg StowUnit.state (settlePinFeedback_stow ..)
  have hwindow : inWindow k = inWindow s.core := inWindow_settlePin ..
  obtain ⟨hstowed, hreleased, hfaulted, hlost⟩ := pinTests_cases u.env k
  rw [hstate] at hstowed hreleased hfaulted hlost
  rw [hwindow] at hstowed hfaulted
  refine ⟨pinFilter_taken hheld, fun hc hs he hr hw => ?_, fun hc hs hr he => ?_, fun hc he hcase => ?_,
    fun hc hs he => ?_,
    fun hc => ?_⟩
  · have hk : (if u.env.setup.configured then pinTests u.env k else k) = enterStowed k :=
      (if_pos hc).trans (hstowed hs he hr hw)
    obtain ⟨ht, hpin, hrest⟩ := enterStowed_effect (k := k) (by rw [hstate, hs]; decide)
    rw [settle_outputs, settle_stow, settle_axes]
    refine ⟨?_, ?_, ?_, ?_, ?_⟩
    · exact (congrArg (fun c : Core => c.stow.state) hk).trans ht
    · exact (congrArg (fun c : Core => c.stow.pin) hk).trans hpin
    · show (s.env.setup.configured && decide (_ = StowState.stowed)) = true
      rw [settle_stow, hc]
      exact decide_eq_true ((congrArg (fun c : Core => c.stow.state) hk).trans ht)
    · exact (congrArg (fun c : Core => isMoving c.axes.az) hk).trans (hrest .az)
    · exact (congrArg (fun c : Core => isMoving c.axes.el) hk).trans (hrest .el)
  · have hk : (if u.env.setup.configured then pinTests u.env k else k) = setStow .clear k :=
      (if_pos hc).trans (hreleased hs hr he)
    obtain ⟨hpin, -⟩ := setStow_pin (k := k) (n := .clear) (by rw [hstate, hs]; decide)
    rw [settle_stow]
    exact ⟨(congrArg (fun c : Core => c.stow.state) hk).trans (setStow_state ..),
      (congrArg (fun c : Core => c.stow.pin) hk).trans hpin⟩
  · have hk : (if u.env.setup.configured then pinTests u.env k else k) = pinFault u.env k :=
      (if_pos hc).trans (hfaulted he hcase)
    have hnot : ¬k.stow.state = .failed := by
      rw [hstate]
      obtain ⟨hs, -⟩ | ⟨hs, -⟩ | ⟨hs, -⟩ := hcase <;> rw [hs] <;> decide
    have hundefined : pinDefined u.env k = false := by
      have he' : pinEngaged u.env = true := he
      rw [pinDefined_eq, hwindow, he']
      obtain ⟨-, hr | hw⟩ | ⟨-, hw⟩ | ⟨-, hr⟩ := hcase
      · simp [show pinRetracted u.env = true from hr]
      · simp [hw]
      · simp [hw]
      · simp [show pinRetracted u.env = true from hr]
    obtain ⟨ht, hpin, -, -, hactive, -⟩ := pinFault_effect (e := u.env) hnot
    rw [settle_stow, settle_cond]
    exact ⟨(congrArg (fun c : Core => c.stow.state) hk).trans ht, (congrArg (fun c : Core => c.stow.pin) hk).trans hpin,
      (congrArg (fun c : Core => condAt c.cond .pinFeedback) hk).trans (hactive hundefined)⟩
  · have hk : (if u.env.setup.configured then pinTests u.env k else k) =
        setStow (if blocking s.env.list then .blocked else .pinning) k := (if_pos hc).trans (hlost hs he)
    rw [settle_stow]
    exact (congrArg (fun c : Core => c.stow.state) hk).trans (setStow_state ..)
  · have hk : (if u.env.setup.configured then pinTests u.env k else k) = k :=
      if_neg (by rw [show u.env.setup.configured = false from hc]; decide)
    rw [settle_stow]
    exact (congrArg (fun c : Core => c.stow.state) hk).trans hstate

/-! ## The stow unit's timers (R50, R54) -/

/-- Settles O45. -/
theorem stowTimersRunOut : Obligations.StowTimersRunOut := by
  intro s hlive
  refine ⟨fun hs hx => ?_, fun hx => ?_⟩
  · have hwork : workOf .pinTimeout s = { s with core := pinFault s.env s.core } := by
      simp only [workOf, onBlocks, pinExpiry, hs, hx, true_and, if_true]
    obtain ⟨hfailed, hpin, htimer, hnotClear, hactive, hmotion⟩ := pinFault_effect (e := s.env) (k := s.core)
      (by obtain hs | hs := hs <;> rw [hs] <;> decide)
    refine ⟨_, exec_core rfl hlive hwork, ?_⟩
    rw [settle_stow, settle_cond, settle_axes]
    exact ⟨hfailed, hpin, htimer, hnotClear, hactive, hmotion .az, hmotion .el⟩
  · have hwork : workOf .releaseHoldExpiry s = { s with core :=
        { s.core with stow := { s.core.stow with holdTimer := none } } } := by
      simp only [workOf, onBlocks, endHold, hx, if_true]
    exact ⟨_, exec_core rfl hlive hwork, settle_stow .., settle_axes ..⟩

/-! ## The end of the wake settle time (R27, R66, R67) -/

theorem wakeEvent_pendingRelease (k : Core) : (wakeEvent k).stow.pendingRelease = k.stow.pendingRelease := by
  unfold wakeEvent
  split <;> rfl

theorem syncStowFailed_pendingRelease (k : Core) : (syncStowFailed k).stow.pendingRelease = k.stow.pendingRelease := by
  obtain hu | hu := syncStowFailed_unit k
  · rw [hu]
  · rw [hu, wakeEvent_pendingRelease]

/-- An axis at rest at its encoder reading. -/
structure RestsAt (o : Option Int) (r : AxisRec) : Prop where
  reading : r.reading = o
  position : r.x = o.getD 0
  rate : r.v = 0
  carry : r.carry = 0
  demand : r.lastDemand = o.getD 0

theorem RestsAt.motion {o : Option Int} {r r' : AxisRec} (hm : motion r' = motion r) (h : RestsAt o r) :
    RestsAt o r' where
  reading := (motion_reading hm).trans h.reading
  position := (motion_x hm).trans h.position
  rate := (motion_v hm).trans h.rate
  carry := (motion_carry hm).trans h.carry
  demand := (congrArg AxisRec.lastDemand hm : (Machine.motion r').lastDemand =
    (Machine.motion r).lastDemand).trans h.demand

theorem RestsAt.faulted {o : Option Int} {r : AxisRec} (h : RestsAt o r) : RestsAt o (faultedAxis r) where
  reading := h.reading
  position := congrArg (Option.getD · 0) h.reading
  rate := rfl
  carry := rfl
  demand := congrArg (Option.getD · 0) h.reading

/-- Both axes rest at their readings, and no release waits for the settle time. -/
structure Resumed (o : Axis → Option Int) (k : Core) : Prop where
  axis : ∀ i, RestsAt (o i) (getAxis k i)
  pending : k.stow.pendingRelease = false

section
variable {o : Axis → Option Int} (h : Resumed o k)
include h

theorem Resumed.put (i : Axis) {r : AxisRec} (hr : RestsAt (o i) r) : Resumed o (putAxis k i r) where
  axis j := by
    by_cases hj : j = i
    · subst hj
      rw [getAxis_putAxis]
      exact hr
    · obtain rfl : j = otherAxis i := by cases i <;> cases j <;> first | rfl | exact absurd rfl hj
      rw [getAxis_putAxis_other]
      exact h.axis _
  pending := h.pending

theorem Resumed.same {k' : Core} (hs : Same true k k') (hp : k'.stow.pendingRelease = k.stow.pendingRelease) :
    Resumed o k' := ⟨fun i => (h.axis i).motion (hs.axis i), hp.trans h.pending⟩

theorem Resumed.endRange (i : Axis) : Resumed o (endRange i k) :=
  ⟨fun j => by rw [endRange_axis]; exact h.axis j, by rw [endRange_stow]; exact h.pending⟩

theorem Resumed.clearPending (i : Axis) : Resumed o (clearPending i k) := by
  unfold Machine.clearPending
  simp only []
  split
  · have hr := h.axis i
    exact h.put i ⟨hr.reading, hr.position, hr.rate, hr.carry, hr.demand⟩
  · exact h

theorem Resumed.takeHold (i : Axis) : Resumed o (takeHold i k) := by
  unfold Machine.takeHold
  simp only []
  split
  · have hr := h.axis i
    refine Resumed.endRange (h.put i ?_) i
    exact ⟨hr.reading, hr.position, hr.rate, hr.carry, hr.demand⟩
  · exact h

theorem Resumed.syncStowFailed : Resumed o (syncStowFailed k) :=
  h.same (syncStowFailed_same k) (syncStowFailed_pendingRelease k)

theorem Resumed.setStow (n : StowState) : Resumed o (setStow n k) := by
  have hpending : (enterStow n k.stow).pendingRelease = false := by
    simp only [enterStow, h.pending, ite_self]
  refine ⟨fun i => (h.axis i).motion (setStow_motion n k i), ?_⟩
  unfold Machine.setStow
  split
  · exact h.pending
  · rw [syncStowFailed_pendingRelease]
    simp only []
    split
    · rw [wakeEvent_pendingRelease]
      exact hpending
    · exact hpending

theorem Resumed.stowAxisFault (i : Axis) : Resumed o (stowAxisFault i k) := by
  unfold Machine.stowAxisFault
  split
  · split
    · exact h.takeHold _
    · exact h
  · exact (h.takeHold _).setStow _
  · exact (h.takeHold _).setStow _
  · exact h.setStow _
  · exact h

theorem Resumed.withdrawWaiting : Resumed o (withdrawWaiting e k) := by
  obtain ⟨haxes, hstow, -⟩ := withdrawWaiting_blocks e k
  exact ⟨fun i => by rw [getAxis_of_axes haxes]; exact h.axis i, by rw [hstow]; exact h.pending⟩

theorem Resumed.faultAxis (i : Axis) : Resumed o (faultAxis e i k) := by
  unfold Machine.faultAxis
  split
  · exact h
  · exact (((((h.put i (h.axis i).faulted).endRange i).stowAxisFault i).clearPending _).withdrawWaiting).syncStowFailed

theorem Resumed.enterUnbraking (i : Axis) (t : Target) : Resumed o (enterUnbraking e i t k) := by
  have hr := h.axis i
  have hput : Resumed o (putAxis k i { getAxis k i with
      state := .unbraking, target := t, releasePending := false, brakeTimer := some 0, brakeSeen := false }) :=
    h.put i ⟨hr.reading, hr.position, hr.rate, hr.carry, hr.demand⟩
  unfold Machine.enterUnbraking
  simp only []
  split
  · exact hput.faultAxis i
  · exact hput

theorem Resumed.giveTarget (i : Axis) (t : Target) : Resumed o (giveTarget e i t k) := by
  have hr := h.axis i
  have hk := h.endRange i
  have put {r : AxisRec} (h1 : r.reading = (getAxis k i).reading) (h2 : r.x = (getAxis k i).x)
      (h3 : r.v = (getAxis k i).v)
      (h4 : r.carry = (getAxis k i).carry) (h5 : r.lastDemand = (getAxis k i).lastDemand) :
      Resumed o (putAxis (Machine.endRange i k) i r) :=
    hk.put i ⟨h1.trans hr.reading, h2.trans hr.position, h3.trans hr.rate, h4.trans hr.carry, h5.trans hr.demand⟩
  unfold Machine.giveTarget
  simp only []
  split
  · unfold requestRelease
    split
    · have hr' := hk.axis i
      exact hk.put i ⟨hr'.reading, hr'.position, hr'.rate, hr'.carry, hr'.demand⟩
    · exact hk.enterUnbraking i t
  · exact put rfl rfl rfl rfl rfl
  · exact put rfl rfl rfl rfl rfl
  · split
    · exact put rfl rfl rfl rfl rfl
    · exact put rfl rfl rfl rfl rfl
  · exact hk

theorem Resumed.driveInTest : Resumed o (driveInTest k) := by
  unfold Machine.driveInTest
  split
  · exact ⟨h.axis, h.pending⟩
  · exact h

theorem Resumed.enterReleasing : Resumed o (enterReleasing e k) :=
  (((h.setStow .releasing).giveTarget .az _).giveTarget .el _).driveInTest

theorem Resumed.tryRelease (i : Axis) : Resumed o (tryRelease e i k) := by
  unfold Machine.tryRelease
  simp only []
  split
  · exact h.enterUnbraking i _
  · exact h

theorem Resumed.tryReleases : Resumed o (tryReleases e k) := (h.tryRelease .az).tryRelease .el

end

/-- No amplifier fault asserted, pending releases leave the stow unit alone. -/
theorem tryReleases_stow (h : e.inputs.ampFault = false) (k : Core) : (tryReleases e k).stow = k.stow := by
  have hone (i : Axis) (k : Core) : (tryRelease e i k).stow = k.stow := by
    unfold tryRelease
    simp only []
    split
    · rw [enterUnbraking_free h, putAxis_stow]
    · rfl
  rw [tryReleases, hone, hone]

/-- The blocks as the end of the settle time finds them: in RUN, both axes at their readings. -/
def awakened (k : Core) : Core :=
  resumeAxes { k with stow := { k.stow with park := .run, settleTimer := none, pendingRelease := false } }

theorem awakened_resumed (k : Core) : Resumed (fun i => (getAxis k i).reading) (awakened k) :=
  ⟨fun i => by cases i <;> exact ⟨rfl, rfl, rfl, rfl, rfl⟩, rfl⟩

theorem endSettle_due (hp : k.stow.park = .waking) (hx : expired k.stow.settleTimer e.setup.secB.wakeSettle = true) :
    endSettle e k = tryReleases e
      (if k.stow.pendingRelease && mayRelease e k then enterReleasing e (awakened k) else awakened k) := by
  unfold endSettle
  rw [if_pos ⟨hp, hx⟩]
  rfl

/-- Settles O46. -/
theorem wakeSettleEnds : Obligations.WakeSettleEnds := by
  intro s hlive hp hx
  let k := if s.core.stow.pendingRelease && mayRelease s.env s.core then enterReleasing s.env (awakened s.core)
    else awakened s.core
  have hwork : workOf .wakeSettleEnd s = { s with core := tryReleases s.env k } := by
    rw [← endSettle_due hp hx]
    rfl
  have hresumed : Resumed (fun i => (getAxis s.core i).reading) (tryReleases s.env k) := by
    refine Resumed.tryReleases ?_
    show Resumed _ (if _ then _ else _)
    split
    · exact (awakened_resumed s.core).enterReleasing
    · exact awakened_resumed s.core
  have hsame : Same false (awakened s.core) (tryReleases s.env k) := by
    refine Same.tryReleases ?_
    show Same false _ (if _ then _ else _)
    split
    · exact (Same.refl _).enterReleasing
    · exact .refl _
  refine ⟨_, exec_core rfl hlive hwork, ?_⟩
  rw [settle_stow]
  refine ⟨hsame.park rfl, hresumed.pending, fun i => ?_, fun hs ha => ?_⟩
  · rw [settle_axis]
    have hr := hresumed.axis i
    exact ⟨hr.position, hr.rate, hr.carry, hr.demand⟩
  · refine (congrArg StowUnit.state (tryReleases_stow ha k)).trans ?_
    have hmay : (s.core.stow.pendingRelease && mayRelease s.env s.core) = true ↔
        (s.core.stow.pendingRelease = true ∧ s.core.stow.causes = noCauses ∧ blocking s.env.list = false
          ∧ someFault s.core = false) := by
      simp [mayRelease, and_assoc]
    show (if _ then _ else _ : Core).stow.state = _
    by_cases hm : (s.core.stow.pendingRelease && mayRelease s.env s.core) = true
    · rw [if_pos hm, if_pos (hmay.mp hm), enterReleasing_state ha]
    · rw [if_neg hm, if_neg fun hc => hm (hmay.mpr hc)]
      exact hs

end Sys2Proof.Machine
end

section
/-! PROOFS. The wind watch: pulses and the grace (R29, R40), what a bin end forms (R30 to R32), and what it hands on (R34 to R40, R45). -/

namespace Sys2Proof.Machine

variable {e : Env} {k : Core} {s : State}

/-! ## Pulses and the grace (R29, R40) -/

theorem countPulse_live {w : Wind} (hb : w.binClock.isSome = true) (hp : w.proof = none) :
    countPulse w = { w with live := min 1023 (w.live + 1) } := by
  have hn : w.binClock.isNone = false := by cases hc : w.binClock <;> simp_all
  simp [countPulse, hn, hp, counterMax]

theorem countPulse_standby {w : Wind} (hb : w.binClock.isSome = true) (hp : w.proof.isSome = true) :
    countPulse w = { w with standby := min 1023 (w.standby + 1) } := by
  have hn : w.binClock.isNone = false := by cases hc : w.binClock <;> simp_all
  simp [countPulse, hn, hp, counterMax]

/-- Settles O47. -/
theorem pulsesAndGrace : Obligations.PulsesAndGrace := by
  intro s hlive
  refine ⟨fun hb => ⟨_, exec_live rfl hlive, fun hp => ?_, fun hp => ?_, settle_axes .., settle_stow ..⟩,
    fun hx => ⟨_, exec_live rfl hlive, ?_⟩⟩
  · exact countPulse_live hb hp
  · exact countPulse_standby hb hp
  · have hwork : workOf .graceExpiry s = recountWind { s with env :=
        { s.env with wind := { s.env.wind with grace := none } } } := by
      simp only [workOf, graceWork, hx, if_true]
    rw [hwork, settle_stow, settle_env]
    have hcauses : ∀ u : State,
        (recountWind u).core.stow.causes = windCauses (recountWind u).env.wind u.core.stow.causes :=
      fun u => updateCauses_causes ..
    rw [hcauses]
    refine ⟨rfl, ?_, rfl, rfl, rfl⟩
    show (!s.env.wind.usable && true && !_) = (!s.env.wind.usable && !_)
    rw [Bool.and_true]
    rfl

/-! ## A bin end, under whichever name (R31 to R33) -/

/-- The five names of a bin end do its work where the thing named falls. -/
theorem exec_binEnd {c : Instr} {lost : Nat} (hlive : Live s)
    (hc : c = .binEnd lost ∨ (c = .gustValid lost ∧ gustFalls s.env.wind = true)
      ∨ (c = .blockEnd lost ∧ blockFalls s.env.wind = true) ∨ (c = .stallExpiry lost ∧ stallFalls s = true)
      ∨ (c = .windProofVerdict lost ∧ verdictFalls lost s = true)) :
    exec c s = .next (settle (intervalOf s) (binEndWork lost s)) := by
  have falls {p : State → Bool} (hp : p s = true) : binEndWhere p lost s = binEndWork lost s := by
    simp [binEndWhere, hp]
  obtain rfl | ⟨rfl, h⟩ | ⟨rfl, h⟩ | ⟨rfl, h⟩ | ⟨rfl, h⟩ := hc
  · exact exec_live rfl hlive
  · rw [exec_live rfl hlive, workOf, falls h]
  · rw [exec_live rfl hlive, workOf, falls h]
  · rw [exec_live rfl hlive, workOf, falls h]
  · rw [exec_live rfl hlive, workOf, falls h]

/-- The wind watch's record after this bin. -/
def windNext (lost : Nat) (s : State) : Wind :=
  windAfterBin s.env lost (windUsable (binConditions s.env lost s.core)) (isActive s.core .anemoStall)

/-- A bin end's work once the first bin has begun (R28, R33). -/
theorem binEndWork_eq {lost : Nat} (hb : s.env.wind.binClock.isSome = true) : binEndWork lost s =
    { s with
      env := { s.env with wind := windNext lost s }
      core := handWind s.env.wind.vote { s.env with wind := windNext lost s } (binConditions s.env lost s.core) } := by
  have hn : s.env.wind.binClock.isNone = false := by cases hc : s.env.wind.binClock <;> simp_all
  unfold binEndWork
  rw [if_neg (by rw [hn]; decide)]
  rfl

theorem pushRing_ne_nil (n : Nat) (l : List Nat) (x : Nat) : ¬pushRing n l x = [] := by
  unfold pushRing
  split <;> simp

/-- The ring and the gust after one more bin (R31). -/
theorem joinRing_fields (speed : Nat) (w : Wind) :
    let ring := pushRing 12 w.ring speed
    (joinRing speed w).ring = ring
      ∧ (ring.length = 12 → (joinRing speed w).gust = total ring / 12 ∧ (joinRing speed w).gustValid = true)
      ∧ (¬ring.length = 12 → (joinRing speed w).gust = w.gust ∧ (joinRing speed w).gustValid = w.gustValid) := by
  intro ring
  unfold joinRing
  simp only []
  split
  · rename_i h
    exact ⟨rfl, fun _ => ⟨rfl, rfl⟩, fun hn => absurd h hn⟩
  · rename_i h
    exact ⟨rfl, fun hl => absurd hl h, fun _ => ⟨rfl, rfl⟩⟩

/-- The blocks after one more bin (R32). -/
theorem joinBlock_fields (speed : Nat) (w : Wind) :
    (w.blockBins = 59 → (joinBlock speed w).blocks = pushRing 40 w.blocks (w.blockSum + speed)
        ∧ (joinBlock speed w).blockSum = 0 ∧ (joinBlock speed w).blockBins = 0)
      ∧ (¬w.blockBins = 59 → (joinBlock speed w).blocks = w.blocks ∧ (joinBlock speed w).blockSum = w.blockSum + speed
        ∧ (joinBlock speed w).blockBins = w.blockBins + 1) := by
  have hbins : w.blockBins + 1 = blockBins ↔ w.blockBins = 59 := by simp [blockBins]
  refine ⟨fun h => ?_, fun h => ?_⟩
  · rw [joinBlock, if_pos (hbins.mpr h)]
    exact ⟨rfl, rfl, rfl⟩
  · rw [joinBlock, if_neg (mt hbins.mp h)]
    exact ⟨rfl, rfl, rfl⟩

/-- The mean by the stored blocks (R32). -/
theorem formMean_fields (w : Wind) :
    (w.blocks = [] → (formMean w).mean = w.gust ∧ (formMean w).meanValid = w.gustValid)
      ∧ (¬w.blocks = [] → (formMean w).mean = total w.blocks / (60 * w.blocks.length)
        ∧ (formMean w).meanValid = true) := by
  refine ⟨fun h => ?_, fun h => ?_⟩
  · rw [formMean, if_pos h]
    exact ⟨rfl, rfl⟩
  · rw [formMean, if_neg h]
    exact ⟨rfl, rfl⟩

/-- The wind figures of two records are the same. -/
structure FiguresSame (w w' : Wind) : Prop where
  ring : w'.ring = w.ring
  gust : w'.gust = w.gust
  gustValid : w'.gustValid = w.gustValid
  blocks : w'.blocks = w.blocks
  blockSum : w'.blockSum = w.blockSum
  blockBins : w'.blockBins = w.blockBins

theorem formMean_figures (w : Wind) : FiguresSame w (formMean w) := by
  unfold formMean
  split <;> exact ⟨rfl, rfl, rfl, rfl, rfl, rfl⟩

theorem joinBlock_ring (speed : Nat) (w : Wind) : (joinBlock speed w).ring = w.ring
    ∧ (joinBlock speed w).gust = w.gust ∧ (joinBlock speed w).gustValid = w.gustValid := by
  unfold joinBlock
  split <;> exact ⟨rfl, rfl, rfl⟩

theorem joinRing_blocks (speed : Nat) (w : Wind) : (joinRing speed w).blocks = w.blocks
    ∧ (joinRing speed w).blockSum = w.blockSum ∧ (joinRing speed w).blockBins = w.blockBins := by
  unfold joinRing
  simp only []
  split <;> exact ⟨rfl, rfl, rfl⟩

/-- All that a bin forms (R31, R32). -/
theorem joinBin_fields (speed : Nat) (w : Wind) :
    let n := joinBin speed w
    let ring := pushRing 12 w.ring speed
    n.ring = ring
      ∧ (ring.length = 12 → n.gust = total ring / 12 ∧ n.gustValid = true)
      ∧ (¬ring.length = 12 → n.gust = w.gust ∧ n.gustValid = w.gustValid)
      ∧ (w.blockBins = 59 → n.blocks = pushRing 40 w.blocks (w.blockSum + speed) ∧ n.blockSum = 0 ∧ n.blockBins = 0
          ∧ n.mean = total n.blocks / (60 * n.blocks.length))
      ∧ (¬w.blockBins = 59 → n.blocks = w.blocks ∧ n.blockSum = w.blockSum + speed ∧ n.blockBins = w.blockBins + 1)
      ∧ (n.blocks = [] → n.mean = n.gust ∧ n.meanValid = n.gustValid)
      ∧ (¬n.blocks = [] → n.mean = total n.blocks / (60 * n.blocks.length) ∧ n.meanValid = true) := by
  intro n ring
  have hf := formMean_figures (joinBlock speed (joinRing speed w))
  obtain ⟨hring, hgust, hvalid⟩ := joinBlock_ring speed (joinRing speed w)
  obtain ⟨hrr, hfull, hpart⟩ := joinRing_fields speed w
  obtain ⟨hblocks, hsum, hbins⟩ := joinRing_blocks speed w
  obtain ⟨hend, hmid⟩ := joinBlock_fields speed (joinRing speed w)
  rw [hblocks, hsum, hbins] at hend hmid
  obtain ⟨hnone, hsome⟩ := formMean_fields (joinBlock speed (joinRing speed w))
  rw [← hf.gust, ← hf.gustValid, ← hf.blocks] at hnone
  rw [← hf.blocks] at hsome
  rw [← hf.blocks, ← hf.blockSum, ← hf.blockBins] at hend hmid
  have hg : n.gust = (joinRing speed w).gust := hf.gust.trans hgust
  have hv : n.gustValid = (joinRing speed w).gustValid := hf.gustValid.trans hvalid
  refine ⟨hf.ring.trans (hring.trans hrr), fun h => ?_, fun h => ?_, fun h => ?_, hmid, hnone, hsome⟩
  · rw [hg, hv]
    exact hfull h
  · rw [hg, hv]
    exact hpart h
  · obtain ⟨hb, hs, hz⟩ := hend h
    have hne : ¬n.blocks = [] := by
      rw [show n.blocks = _ from hb]
      exact pushRing_ne_nil 40 _ _
    exact ⟨hb, hs, hz, (hsome hne).1⟩

theorem localVote_unusable (p : SecC) (w : Wind) : localVote p w false = .none := by simp [localVote]

theorem settleWind_figures (e : Env) (usable : Bool) (p : SecC) (lost t : Nat) (n : Wind) :
    let w := settleWind e usable (proofRecord p lost { n with stall := t })
    FiguresSame n w ∧ w.mean = n.mean ∧ w.meanValid = n.meanValid ∧ w.live = 0 ∧ w.standby = 0 :=
  ⟨⟨rfl, rfl, rfl, rfl, rfl, rfl⟩, rfl, rfl, rfl, rfl⟩

theorem settleWind_derived (e : Env) (usable : Bool) (p : SecC) (lost t : Nat) (n : Wind) :
    let w := settleWind e usable (proofRecord p lost { n with stall := t })
    w.usable = usable ∧ w.outLocal = decide (w.vote = .stow) ∧ w.outPeers = peersCause e usable
      ∧ w.outBlind = (!usable && n.grace.isNone && !((windPeersFresh e).any fun p => !(p.vote = .none)))
      ∧ (usable = false → w.vote = .none) :=
  ⟨rfl, rfl, rfl, rfl, fun h => by rw [h]; exact localVote_unusable ..⟩

/-- The record after the bin holds what the bin forms, its counters at 0 (R33). -/
theorem windNext_figures (lost : Nat) (s : State) :
    let n := joinBin (binSpeed s.env.setup.secC (binCount s.env.wind)) s.env.wind
    FiguresSame n (windNext lost s) ∧ (windNext lost s).mean = n.mean ∧ (windNext lost s).meanValid = n.meanValid
      ∧ (windNext lost s).live = 0 ∧ (windNext lost s).standby = 0 := settleWind_figures ..

theorem joinBin_kept (speed : Nat) (w : Wind) :
    (joinBin speed w).proof = w.proof ∧ (joinBin speed w).grace = w.grace := by
  unfold joinBin formMean joinBlock joinRing
  simp only []
  split <;> split <;> split <;> exact ⟨rfl, rfl⟩

/-- What the record after the bin derives (R34, R36, R38 to R40). -/
theorem windNext_derived (lost : Nat) (s : State) :
    let usable := windUsable (binConditions s.env lost s.core)
    (windNext lost s).usable = usable ∧ (windNext lost s).outLocal = decide ((windNext lost s).vote = .stow)
      ∧ (windNext lost s).outPeers = peersCause s.env usable
      ∧ (windNext lost s).outBlind =
          (!usable && s.env.wind.grace.isNone && !((windPeersFresh s.env).any fun p => !(p.vote = .none)))
      ∧ (usable = false → (windNext lost s).vote = .none) := by
  intro usable
  obtain ⟨-, hgrace⟩ := joinBin_kept (binSpeed s.env.setup.secC (binCount s.env.wind)) s.env.wind
  rw [← hgrace]
  exact settleWind_derived ..

/-- Settles O48: a bin end's record holds what the bin forms, its counters at 0. -/
theorem binEndFormsGustAndMean : Obligations.BinEndFormsGustAndMean := by
  intro c lost s hlive hb hc speed ring
  refine ⟨_, exec_binEnd hlive hc, ?_⟩
  obtain ⟨hsame, hmean, hvalid, hlive', hstandby⟩ := windNext_figures lost s
  have hfields := joinBin_fields speed s.env.wind
  have hwind : (settle (intervalOf s) (binEndWork lost s)).env.wind = windNext lost s := by
    rw [settle_env, binEndWork_eq hb]
  rw [hwind, hsame.ring, hsame.gust, hsame.gustValid, hsame.blocks, hsame.blockSum, hsame.blockBins, hmean, hvalid]
  exact ⟨hlive', hstandby, hfields⟩

/-! ## What a bin end hands on (R34 to R40) -/

theorem stallCause_conds (e : Env) (c t : Nat) (k : Core) :
    (∀ d, ¬d = .anemoStall → condAt (stallCause e c t k).cond d = condAt k.cond d)
      ∧ (stallCause e c t k).axes.derating = k.axes.derating ∧ (stallCause e c t k).stow.causes = k.stow.causes := by
  unfold stallCause
  split
  · exact ⟨fun d hd => endCond_other hd k, by rw [endCond_axes], by rw [endCond_stow]⟩
  split
  · exact ⟨fun d hd => raiseCond_other hd k, (raiseCond_same .anemoStall k).derating, raiseCond_causes ..⟩
  · exact ⟨fun _ _ => rfl, rfl, rfl⟩

theorem proofCause_conds (v : Option Bool) (k : Core) :
    (∀ d, ¬d = .anemoProof → condAt (proofCause v k).cond d = condAt k.cond d)
      ∧ (proofCause v k).axes.derating = k.axes.derating ∧ (proofCause v k).stow.causes = k.stow.causes := by
  unfold proofCause
  split
  · exact ⟨fun _ _ => rfl, rfl, rfl⟩
  · exact ⟨fun d hd => endCond_other hd k, by rw [endCond_axes], by rw [endCond_stow]⟩
  · exact ⟨fun d hd => raiseCond_other hd k, (raiseCond_same .anemoProof k).derating, raiseCond_causes ..⟩

theorem binConditions_blocks (e : Env) (lost : Nat) (k : Core) :
    (binConditions e lost k).axes.derating = k.axes.derating
      ∧ (binConditions e lost k).stow.causes = k.stow.causes := by
  obtain ⟨-, hpd, hpc⟩ := proofCause_conds (verdictNow e.setup.secC lost e.wind)
    (stallCause e (binCount e.wind) (stallNext e (isActive k .anemoStall) (binCount e.wind) e.wind.stall) k)
  obtain ⟨-, hsd, hsc⟩ := stallCause_conds e (binCount e.wind)
    (stallNext e (isActive k .anemoStall) (binCount e.wind) e.wind.stall) k
  exact ⟨hpd.trans hsd, hpc.trans hsc⟩

/-- The axis controller takes the effective gust (R19), and leaves causes and conditions. -/
theorem takeGust_effect (e : Env) (k : Core) :
    (takeGust e k).axes.derating = deratingFor e.setup.secC.derate e.wind.effective k.axes.derating
      ∧ (takeGust e k).stow.causes = k.stow.causes
      ∧ ∀ d, looseCond false d = false → condAt (takeGust e k).cond d = condAt k.cond d := by
  unfold takeGust
  simp only []
  split
  · rename_i h
    exact ⟨h.symm, rfl, fun _ _ => rfl⟩
  · have hs : Same false { k with axes := { k.axes with
        derating := deratingFor e.setup.secC.derate e.wind.effective k.axes.derating } } _ :=
      (Same.refl _).recomputeClaim (e := e)
    exact ⟨hs.derating, hs.causes, hs.conds⟩

/-- What the other blocks take of a bin end. -/
theorem handWind_effect (old : Vote) (e : Env) (k : Core) :
    (handWind old e k).axes.derating = deratingFor e.setup.secC.derate e.wind.effective k.axes.derating
      ∧ (handWind old e k).stow.causes = windCauses e.wind k.stow.causes
      ∧ ∀ d, looseCond false d = false → condAt (handWind old e k).cond d = condAt k.cond d := by
  have hc := updateCauses_same (e := e) (windCauses e.wind k.stow.causes) k
  have hcauses := updateCauses_causes (e := e) (windCauses e.wind k.stow.causes) k
  let k1 := updateCauses e (windCauses e.wind k.stow.causes) k
  let k2 := if e.wind.vote = old then k1 else request .urgent k1
  have h2 : k2.axes = k1.axes ∧ k2.stow = k1.stow ∧ k2.cond = k1.cond := by
    show (if _ then _ else _ : Core).axes = _ ∧ (if _ then _ else _ : Core).stow = _
        ∧ (if _ then _ else _ : Core).cond = _
    split <;> exact ⟨rfl, rfl, rfl⟩
  obtain ⟨haxes, hstow, hcond⟩ := h2
  obtain ⟨hd, hg, hgc⟩ := takeGust_effect e k2
  have ht : Same false (takeGust e k2) (handWind old e k) := (Same.refl _).tryReleases
  refine ⟨ht.derating.trans (hd.trans ?_), ht.causes.trans (hg.trans ?_),
    fun d hl => (ht.conds d hl).trans ((hgc d hl).trans ?_)⟩
  · rw [haxes, show k1.axes.derating = k.axes.derating from hc.derating]
  · rw [hstow]
    exact hcauses
  · rw [hcond]
    exact hc.conds d hl

/-- The conditions that the wind watch derives the usability from stand through the rest of the bin end. -/
theorem windUsable_after {lost : Nat} (hb : s.env.wind.binClock.isSome = true) {d : Cond}
    (hd : looseCond false d = false) :
    condAt (binEndWork lost s).core.cond d = condAt (binConditions s.env lost s.core).cond d := by
  rw [binEndWork_eq hb]
  obtain ⟨-, -, hc⟩ := handWind_effect s.env.wind.vote { s.env with wind := windNext lost s }
    (binConditions s.env lost s.core)
  exact hc d hd

theorem windUsable_false_of_stall (h : condAt k.cond .anemoStall = .active) : windUsable k = false := by
  simp [windUsable, isActive, h]

theorem windUsable_false_of_proof (h : condAt k.cond .anemoProof = .active) : windUsable k = false := by
  simp [windUsable, isActive, h]

theorem windNext_proof {lost : Nat} {pass : Bool} (h : verdictNow s.env.setup.secC lost s.env.wind = some pass) :
    (windNext lost s).proof = none := by
  obtain ⟨r, hr, hv⟩ := Option.bind_eq_some_iff.mp h
  obtain ⟨hproof, -⟩ := joinBin_kept (binSpeed s.env.setup.secC (binCount s.env.wind)) s.env.wind
  show ((joinBin _ s.env.wind).proof.bind _) = none
  rw [hproof, hr, Option.bind_some]
  simp only [hv, Option.isSome_some, if_true]

/-- A stall that falls at a bin end is raised (R35). -/
theorem binConditions_stall {lost : Nat} (h : stallFalls s = true) :
    condAt (binConditions s.env lost s.core).cond .anemoStall = .active := by
  simp only [stallFalls, Bool.and_eq_true, Bool.not_eq_true', decide_eq_true_eq] at h
  obtain ⟨hn, hcount, hbins⟩ := h
  obtain ⟨hkeep, -⟩ := proofCause_conds (verdictNow s.env.setup.secC lost s.env.wind)
    (stallCause s.env (binCount s.env.wind) (stallNext s.env (isActive s.core .anemoStall) (binCount s.env.wind)
      s.env.wind.stall) s.core)
  unfold binConditions
  rw [hkeep .anemoStall (by decide), hcount, hn, stallCause, if_neg (Nat.lt_irrefl 0), if_pos hbins]
  exact raiseCond_active ..

/-- A verdict that falls at a bin end sets the condition (R45). -/
theorem binConditions_verdict {lost : Nat} {pass : Bool} (h : verdictNow s.env.setup.secC lost s.env.wind = some pass) :
    (pass = true → ¬condAt (binConditions s.env lost s.core).cond .anemoProof = .active)
      ∧ (pass = false → condAt (binConditions s.env lost s.core).cond .anemoProof = .active) := by
  unfold binConditions
  rw [h]
  refine ⟨?_, ?_⟩
  · rintro rfl
    exact endCond_notActive _ _
  · rintro rfl
    exact raiseCond_active _ _

section
variable {lost : Nat} (hlive : Live s) (hb : s.env.wind.binClock.isSome = true)
include hlive hb

theorem bin_hands_on :
    ∃ t, exec (.binEnd lost) s = .next t
      ∧ t.core.axes.derating = deratingFor s.env.setup.secC.derate t.env.wind.effective s.core.axes.derating
      ∧ t.core.stow.causes.windLocal = decide (t.env.wind.vote = .stow)
      ∧ t.core.stow.causes.windPeers =
          decide ((if t.env.wind.usable = true then s.env.setup.secC.quorum else 1) ≤ stowVotes s.env)
      ∧ t.core.stow.causes.blind =
          (!t.env.wind.usable && s.env.wind.grace.isNone && !((windPeersFresh s.env).any fun p => !(p.vote = .none)))
      ∧ t.env.wind.usable =
          (decide (¬condAt t.core.cond .anemoStall = .active) && decide (¬condAt t.core.cond .anemoProof = .active))
      ∧ t.core.stow.causes.isolation = s.core.stow.causes.isolation
      ∧ t.core.stow.causes.console = s.core.stow.causes.console
      ∧ t.env.list = s.env.list ∧ t.env.peers = s.env.peers := by
  refine ⟨_, exec_binEnd hlive (.inl rfl), ?_⟩
  rw [settle_axes, settle_stow, settle_cond, settle_env]
  obtain ⟨hder, hcauses, -⟩ := handWind_effect s.env.wind.vote { s.env with wind := windNext lost s }
    (binConditions s.env lost s.core)
  obtain ⟨hbd, hbc⟩ := binConditions_blocks s.env lost s.core
  obtain ⟨husable, hlocal, hpeers, hblind, -⟩ := windNext_derived lost s
  have hstall := windUsable_after (lost := lost) hb (d := .anemoStall) rfl
  have hproof := windUsable_after (lost := lost) hb (d := .anemoProof) rfl
  rw [binEndWork_eq hb] at hstall hproof ⊢
  rw [hstall, hproof, hcauses, hbc, hder, hbd]
  refine ⟨rfl, hlocal, ?_, ?_, ?_, rfl, rfl, rfl, rfl⟩
  · show (windNext lost s).outPeers = decide ((if (windNext lost s).usable = true then _ else _) ≤ _)
    rw [hpeers, husable]
    rfl
  · show (windNext lost s).outBlind = (!(windNext lost s).usable && _ && _)
    rw [hblind, husable]
  · show (windNext lost s).usable = _
    rw [husable]
    simp [windUsable, isActive]

theorem stall_hands_on (h : stallFalls s = true) :
    ∃ t, exec (.stallExpiry lost) s = .next t ∧ condAt t.core.cond .anemoStall = .active ∧ t.env.wind.usable = false
      ∧ t.env.wind.vote = .none := by
  have hstall := binConditions_stall (lost := lost) h
  have hunusable := windUsable_false_of_stall hstall
  obtain ⟨husable, -, -, -, hvote⟩ := windNext_derived lost s
  refine ⟨_, exec_binEnd hlive (.inr (.inr (.inr (.inl ⟨rfl, h⟩)))), ?_⟩
  rw [settle_cond, settle_env, windUsable_after hb rfl, binEndWork_eq hb]
  exact ⟨hstall, husable.trans hunusable, hvote hunusable⟩

theorem verdict_hands_on (pass : Bool) (h : verdictNow s.env.setup.secC lost s.env.wind = some pass) :
    ∃ t, exec (.windProofVerdict lost) s = .next t ∧ t.env.wind.proof = none ∧ t.outputs.synthetic = false
      ∧ (pass = true → ¬condAt t.core.cond .anemoProof = .active)
      ∧ (pass = false → condAt t.core.cond .anemoProof = .active ∧ t.env.wind.vote = .none) := by
  have hfalls : verdictFalls lost s = true := by rw [verdictFalls, h]; rfl
  obtain ⟨hpass, hfail⟩ := binConditions_verdict h
  obtain ⟨-, -, -, -, hvote⟩ := windNext_derived lost s
  have hnone := windNext_proof h
  refine ⟨_, exec_binEnd hlive (.inr (.inr (.inr (.inr ⟨rfl, hfalls⟩)))), ?_⟩
  rw [settle_outputs, settle_cond, settle_env, windUsable_after hb rfl, binEndWork_eq hb]
  exact ⟨hnone, congrArg Option.isSome hnone, hpass, fun hp => ⟨hfail hp, hvote (windUsable_false_of_proof (hfail hp))⟩⟩

end

/-- Settles O49. -/
theorem binEndHandsOn : Obligations.BinEndHandsOn := fun _ _ hlive hb =>
  ⟨bin_hands_on hlive hb, stall_hands_on hlive hb, verdict_hands_on hlive hb⟩

end Sys2Proof.Machine
end

section
/-! PROOFS. The admission tests of a WAITING claim (R151 to R154), and the end of a record write (R79). -/

namespace Sys2Proof.Machine

variable {e : Env} {k k' : Core} {s : State}

/-! ## What a computation leaves of the fill time and of STOW_FORCED -/

/-- The fill time stands, and STOW_FORCED stays ACTIVE where it was. -/
structure ForceKept (k k' : Core) : Prop where
  fill : k'.fee.fill = k.fee.fill
  forced : condAt k.cond .stowForced = .active → condAt k'.cond .stowForced = .active

theorem ForceKept.refl (k : Core) : ForceKept k k := ⟨rfl, id⟩

theorem ForceKept.trans {a b c : Core} (h : ForceKept a b) (g : ForceKept b c) : ForceKept a c :=
  ⟨g.fill.trans h.fill, g.forced ∘ h.forced⟩

theorem setStow_forced (n : StowState) (k : Core) :
    condAt (setStow n k).cond .stowForced = condAt k.cond .stowForced := by
  have hsync (u : Core) : condAt (syncStowFailed u).cond .stowForced = condAt u.cond .stowForced := by
    unfold syncStowFailed syncCond
    split
    · exact raiseCond_other (by decide) u
    · exact endCond_other (by decide) u
  unfold setStow
  split
  · rfl
  · rw [hsync]
    simp only []
    split
    · exact congrArg (fun u : CondUnit => condAt u .stowForced) (wakeEvent_cond _)
    · rfl

theorem overcommitTest_force (e : Env) (k : Core) : ForceKept k (overcommitTest e k).1 := by
  have hraised : ForceKept k (raiseCond .overload k) :=
    ⟨by rw [raiseCond_fee], fun h => (raiseCond_other (by decide) k).trans h⟩
  unfold overcommitTest
  split
  · simp only []
    split
    · exact ⟨hraised.fill, hraised.forced⟩
    · exact hraised
  · exact ⟨by rw [endCond_fee], fun h => (endCond_other (by decide) k).trans h⟩

/-- An admission leaves the fill time, and a forced one raises STOW_FORCED (R154). -/
theorem admitClaim_force (f : Bool) (k : Core) :
    ForceKept k (admitClaim f k) ∧ (f = true → condAt (admitClaim f k).cond .stowForced = .active) := by
  refine ⟨⟨by rw [admitClaim_fee], fun h => ?_⟩, fun hf => ?_⟩
  · unfold admitClaim
    simp only []
    have hraise (u : Core) (hu : condAt u.cond .stowForced = .active) :
        condAt (if f then raiseCond .stowForced u else u).cond .stowForced = .active := by
      split
      · exact raiseCond_active ..
      · exact hu
    split
    · exact (setStow_forced ..).trans (hraise _ h)
    · exact hraise _ h
  · unfold admitClaim
    simp only [hf, if_true]
    split
    · exact (setStow_forced ..).trans (raiseCond_active ..)
    · exact raiseCond_active ..

theorem computePass_force (e : Env) (k : Core) : ForceKept k (computePass e k).1 := by
  have hover : ForceKept k (overcommitTest e (withFigures e k)).1 :=
    (ForceKept.mk (k := k) (k' := withFigures e k) rfl id).trans (overcommitTest_force e (withFigures e k))
  unfold computePass
  simp only []
  split
  · obtain ⟨hfill, hforced⟩ := (admitClaim_force _ (handAllowance e _ _)).1
    exact ⟨hfill.trans hover.fill, hforced ∘ hover.forced⟩
  · exact hover.trans ⟨rfl, id⟩

theorem computeTimes_force (e : Env) : ∀ (n : Nat) (k : Core), ForceKept k (computeTimes e n k) := by
  intro n
  induction n with
  | zero => exact fun k => .refl k
  | succ n ih =>
    intro k
    unfold computeTimes
    simp only []
    split
    · exact (computePass_force e k).trans (ih _)
    · exact computePass_force e k

theorem compute_force (e : Env) (k : Core) : ForceKept k (compute e k) := by
  unfold compute
  split
  · exact computeTimes_force e 3 k
  · exact ⟨rfl, id⟩

/-! ## An admission and the computation that follows (R154) -/

/-- An admission is its beacon request and what the conditions and the stow unit make of it. -/
theorem admitClaim_same (f : Bool) (k : Core) : Same false (request .urgent k) (admitClaim f k) := by
  have hreq : Same false (request .urgent k)
      (request .urgent { k with fee := { k.fee with claim := { k.fee.claim with state := .active, forced := f } } }) :=
    (Same.refl (request .urgent k)).fee _
  have hraised : Same false (request .urgent k) (if f then raiseCond .stowForced
      (request .urgent { k with fee := { k.fee with claim := { k.fee.claim with state := .active, forced := f } } })
      else request .urgent
        { k with fee := { k.fee with claim := { k.fee.claim with state := .active, forced := f } } }) := by
    split
    · exact hreq.raiseCond _ rfl
    · exact hreq
  unfold admitClaim
  simp only []
  split
  · exact hraised.setStow _
  · exact hraised

/-- What the blocks hold after a claim has been admitted. -/
structure Admission (f : Bool) (k k' : Core) : Prop where
  state : k'.fee.claim.state = .active
  forced : k'.fee.claim.forced = f
  kind : k'.fee.claim.kind = k.fee.claim.kind
  waitAge : k'.fee.claim.waitAge = k.fee.claim.waitAge
  fill : k'.fee.fill = k.fee.fill
  pending : k'.line.pending = some .urgent
  cause : f = true → condAt k'.cond .stowForced = .active
  moving : k.fee.claim.kind = .stow → k.stow.state = .demanded → k'.stow.state = .moving

theorem compute_admission (e : Env) (f : Bool) (k : Core) : Admission f k (compute e (admitClaim f k)) := by
  have hruns := compute_runs_of (e := e) (congrArg Feeder.claim (admitClaim_fee f k))
  obtain ⟨hstate, hforced⟩ := hruns.active rfl
  obtain ⟨hkept, hcause⟩ := admitClaim_force f k
  have hcompute := compute_force e (admitClaim f k)
  refine ⟨hstate, hforced, hruns.kind, hruns.waitAge, hcompute.fill.trans hkept.fill, ?_,
    fun hf => hcompute.forced (hcause hf),
    fun hk hs => ?_⟩
  · exact ((admitClaim_same f k).compute (e := e)).line.urgent (requestOn_urgent k.line)
  · have hmoving : (admitClaim f k).stow.state = .moving := by
      unfold admitClaim
      simp only []
      rw [if_pos ⟨hk, hs⟩, setStow_state]
    obtain h | ⟨h, -⟩ := compute_stow e (admitClaim f k)
    · exact h.trans hmoving
    · exact absurd (hmoving.symm.trans h) (by decide)

/-! ## The three tests (R151 to R153) -/

section
variable (hb : hasBudget e = true) (hw : k.fee.claim.state = .waiting)
include hb hw

theorem testAdmission_admits (hm : mayAdmit e k = true) : Admission false k (testAdmission e k) := by
  have htest : admissionTest e k = some false := by simp [admissionTest, hb, hw, hm]
  rw [testAdmission, htest]
  exact compute_admission e false k

theorem testAdmission_forces (hf : mustForce e k = true) : Admission (!mayAdmit e k) k (testAdmission e k) := by
  have htest : admissionTest e k = some (!mayAdmit e k) := by
    cases hm : mayAdmit e k <;> simp [admissionTest, hb, hw, hm, hf]
  rw [testAdmission, htest]
  exact compute_admission e _ k

end

theorem testAdmission_waits (hm : mayAdmit e k = false) (hf : mustForce e k = false) : testAdmission e k = k := by
  have htest : admissionTest e k = none := by simp [admissionTest, hm, hf]
  rw [testAdmission, htest]

theorem exec_settleIntervalEnd (hlive : Live s) : exec .settleIntervalEnd s =
    .next (settle (intervalOf s) { s with core := endSettleInterval s.env s.core }) := exec_live rfl hlive

theorem exec_fillTimeEnd (hlive : Live s) : exec .fillTimeEnd s =
    .next (settle (intervalOf s) { s with core := endFill s.env s.core }) := exec_live rfl hlive

theorem exec_stowWaitLimit (hlive : Live s) : exec .stowWaitLimit s =
    .next (settle (intervalOf s) { s with core := waitLimit s.env s.core }) := exec_live rfl hlive

/-- The claim once the test at the settle interval's passing has been made. -/
def settledClaim (k : Core) : Core := { k with fee := { k.fee with claim := { k.fee.claim with settled := true } } }

theorem endSettleInterval_cases (e : Env) (k : Core) :
    endSettleInterval e k = testAdmission e (settledClaim k) ∨ endSettleInterval e k = k := by
  unfold endSettleInterval
  split
  · exact .inl rfl
  · exact .inr rfl

/-- Settles O50. -/
theorem waitingClaimIsAdmitted : Obligations.WaitingClaimIsAdmitted := by
  intro s hlive hb hw
  have urgent (old : Nat) (k : Core) (h : k.line.pending = some .urgent) :
      (settle old { s with core := k }).core.line.pending = some .urgent := (settle_line old _).urgent h
  refine ⟨fun hs hn hm => ?_, fun hx hm => ?_, fun hkind hage hset => ?_, fun hm hf => ⟨?_, ?_⟩, fun hm hf => ?_⟩
  · have hdo : endSettleInterval s.env s.core = testAdmission s.env (settledClaim s.core) := if_pos ⟨hw, hs, hn⟩
    have hadm : Admission false (settledClaim s.core) (endSettleInterval s.env s.core) :=
      hdo ▸ testAdmission_admits (k := settledClaim s.core) hb hw hm
    refine ⟨_, exec_settleIntervalEnd hlive, ?_, ?_, ?_, urgent _ _ hadm.pending⟩ <;> rw [settle_fee]
    exacts [hadm.state, hadm.kind, hadm.waitAge]
  · have hdo : endFill s.env s.core = testAdmission s.env { s.core with fee := { s.core.fee with fill := none } } :=
        if_pos hx
    have hadm : Admission false { s.core with fee := { s.core.fee with fill := none } } (endFill s.env s.core) :=
      hdo ▸ testAdmission_admits (k := { s.core with fee := { s.core.fee with fill := none } }) hb hw hm
    refine ⟨_, exec_fillTimeEnd hlive, ?_, ?_, ?_, urgent _ _ hadm.pending⟩ <;> rw [settle_fee]
    exacts [hadm.fill, hadm.state, hadm.kind]
  · have hforce : mustForce s.env s.core = true := by
      simp [mustForce, hkind, hset, stowWaitUnits, waitAgeMax]
      omega
    have hdo : waitLimit s.env s.core = testAdmission s.env s.core := if_pos hforce
    have hadm : Admission (!mayAdmit s.env s.core) s.core (waitLimit s.env s.core) :=
        hdo ▸ testAdmission_forces hb hw hforce
    refine ⟨_, exec_stowWaitLimit hlive, ?_, ?_, ?_, fun hm => ?_, fun hd => ?_⟩
    · rw [settle_fee]; exact hadm.state
    · rw [settle_fee]; exact hadm.kind.trans hkind
    · rw [settle_fee]; exact hadm.forced
    · rw [settle_cond]; exact hadm.cause (by rw [hm]; rfl)
    · rw [settle_stow]; exact hadm.moving hkind hd
  · have hleft : endSettleInterval s.env s.core = settledClaim s.core ∨ endSettleInterval s.env s.core = s.core := by
      obtain h | h := endSettleInterval_cases s.env s.core
      · exact .inl (h.trans (testAdmission_waits (k := settledClaim s.core) hm hf))
      · exact .inr h
    refine ⟨_, exec_settleIntervalEnd hlive, ?_⟩
    rw [settle_fee, settle_stow]
    obtain h | h := hleft <;> simp only [h]
    · exact ⟨hw, rfl, rfl⟩
    · exact ⟨hw, trivial, trivial⟩
  · have hno : waitLimit s.env s.core = s.core := by simp [waitLimit, hf]
    refine ⟨_, exec_stowWaitLimit hlive, ?_⟩
    rw [settle_fee, settle_stow, hno]
    exact ⟨rfl, rfl⟩
  · have hleft : (endFill s.env s.core).fee.claim = s.core.fee.claim ∧ (endFill s.env s.core).stow = s.core.stow := by
      unfold endFill
      split
      · rw [testAdmission_waits hm hf]
        exact ⟨rfl, rfl⟩
      · exact ⟨rfl, rfl⟩
    refine ⟨_, exec_fillTimeEnd hlive, ?_⟩
    rw [settle_fee, settle_stow]
    exact hleft

/-! ## The end of a record write (R79) -/

theorem beginWrite_cases {ls : List Lock} {st : Store} (hw : st.writing = none) :
    (beginWrite ls st).marks = st.marks
      ∧ (st.queue = [] → (beginWrite ls st).writing = none ∧ (beginWrite ls st).records = st.records)
      ∧ (∀ j rest, st.queue = j :: rest → (beginWrite ls st).writing = some (j, 0) ∧ (beginWrite ls st).queue = rest
        ∧ (beginWrite ls st).records = writeContent ls j st.records) := by
  cases hq : st.queue with
  | nil =>
    have hdo : beginWrite ls st = st := by simp [beginWrite, hw, hq]
    rw [hdo]
    exact ⟨rfl, fun _ => ⟨hw, rfl⟩, nofun⟩
  | cons j rest =>
    have hdo : beginWrite ls st =
        { st with records := writeContent ls j st.records, queue := rest, writing := some (j, 0) } := by
      simp [beginWrite, hw, hq]
    rw [hdo]
    refine ⟨rfl, nofun, fun i r h => ?_⟩
    obtain ⟨rfl, rfl⟩ := List.cons.inj h
    exact ⟨rfl, rfl, rfl⟩

/-- Settles O52. -/
theorem recordWriteEnds : Obligations.RecordWriteEnds := by
  intro i ms s hlive hwr hms
  have hdo : endWrite s.env.list s.store = beginWrite s.env.list
      { s.store with
        writing := none
        emptying := false
        marks := if s.store.queue.contains i then s.store.marks else s.store.marks.filter
          fun m => !(markIdent m = i) } := by
    simp only [endWrite, hwr]
    exact if_pos hms
  obtain ⟨hmarks, hempty, hnext⟩ := beginWrite_cases (ls := s.env.list)
    (st := { s.store with
      writing := none
      emptying := false
      marks := if s.store.queue.contains i then s.store.marks else s.store.marks.filter
        fun m => !(markIdent m = i) }) rfl
  rw [← hdo] at hmarks hempty hnext
  obtain ⟨-, hrecords, hmarks', hqueue, hwriting, -⟩ :=
    settle_store (intervalOf s) { s with store := endWrite s.env.list s.store }
  refine ⟨_, exec_live rfl hlive, ?_, fun hq => ?_, fun j rest hq => ?_, rfl, settle_axes ..⟩
  · refine hmarks'.trans (hmarks.trans ?_)
    simp only [List.contains_iff_mem]
  · obtain ⟨h, g⟩ := hempty hq
    exact ⟨hwriting.trans h, hrecords.trans g⟩
  · obtain ⟨h, g, f⟩ := hnext j rest hq
    exact ⟨hwriting.trans h, hqueue.trans g, hrecords.trans f⟩

end Sys2Proof.Machine
end

section
/-! PROOFS. The heater unit: polls and their failures (R89, R90), the wet input (R91), cycles (R97, R98), contactor feedback (R100), and the feedback proof's verdict (R179). -/

namespace Sys2Proof.Machine

variable {e : Env} {k : Core} {s : State}

/-! ## What an evaluation leaves of the heater unit -/

/-- The readings, the failed-poll counts and the wet input as they were. -/
structure ReadingsKept (h h' : Heater) : Prop where
  wet : h'.wet = h.wet
  memory : h'.memory = h.memory
  ambient : h'.ambient = h.ambient
  ambientFails : h'.ambientFails = h.ambientFails
  reading : ∀ z, (fourGet h'.zones z).reading = (fourGet h.zones z).reading
  fails : ∀ z, (fourGet h'.zones z).fails = (fourGet h.zones z).fails

theorem lowerZone_fails (period new : Nat) (z : Zone) : (lowerZone period new z).fails = z.fails := by
  unfold lowerZone; split <;> rfl

theorem formDemands_readings (e : Env) (k : Core) : ReadingsKept k.heat (formDemands e k) :=
  ⟨rfl, rfl, rfl, rfl, fun z => by simp only [formDemands, fourGet_fourOf],
    fun z => by simp only [formDemands, fourGet_fourOf]⟩

theorem applyAllowance_readings {h0 : Heater} (h : ReadingsKept h0 k.heat) :
    ReadingsKept h0 (applyAllowance e k).heat :=
  ⟨h.wet, h.memory, h.ambient, h.ambientFails,
    fun z => by simpa only [applyAllowance, fourGet_fourOf, lowerZone_reading] using h.reading z,
    fun z => by simpa only [applyAllowance, fourGet_fourOf, lowerZone_fails] using h.fails z⟩

theorem evaluateHeat_readings (e : Env) (k : Core) : ReadingsKept k.heat (evaluateHeat e k).heat := by
  cases hruns : heaterRuns e with
  | true =>
    exact evaluateHeat_heat (P := ReadingsKept k.heat) (Q := ReadingsKept k.heat) (fun _ => applyAllowance_readings)
      (fun _ => id) hruns (formDemands_readings e k)
  | false =>
    have hdo : evaluateHeat e k = k := by simp [evaluateHeat, hruns]
    rw [hdo]
    exact ⟨rfl, rfl, rfl, rfl, fun _ => rfl, fun _ => rfl⟩

/-! ## A poll round (R89, R90) -/

theorem polled_some {x : Option Int} {v : Int} (hx : x = some v) (hl : -550 ≤ v) (hh : v ≤ 850) :
    polled x = some v := by
  simp [polled, hx, Option.filter, inRangeInt, sensorLow, sensorHigh, hl, hh]

theorem polled_none {x : Option Int} (h : ∀ v, x = some v → v < -550 ∨ 850 < v) : polled x = none := by
  cases hx : x with
  | none => rfl
  | some v =>
    have hout : inRangeInt sensorLow sensorHigh v = false := by
      have hv := h v hx
      rw [Bool.eq_false_iff, ne_eq, inRangeInt_iff, sensorLow, sensorHigh]
      omega
    simp [polled, Option.filter, hout]

theorem endCond_stays {c : Cond} (d : Cond) (h : ¬condAt k.cond c = .active) :
    ¬condAt (endCond d k).cond c = .active := by
  by_cases hd : c = d
  · exact hd ▸ endCond_notActive _ _
  · rwa [endCond_other hd]

/-- The cause of one zone sensor ended, and of some in turn, as R90 ends them. -/
def endZoneSensor (k : Core) (z : Fin 4) : Core :=
  if (fourGet k.heat.zones z).fails = 0 then endCond (.zoneSensor z) k else k

def endZoneSensors (zs : List (Fin 4)) (k : Core) : Core := zs.foldl endZoneSensor k

theorem endZoneSensor_heat (z : Fin 4) (k : Core) : (endZoneSensor k z).heat = k.heat := by
  unfold endZoneSensor
  split
  · exact endCond_heat ..
  · rfl

theorem endZoneSensors_heat (zs : List (Fin 4)) : ∀ k : Core, (endZoneSensors zs k).heat = k.heat := by
  induction zs with
  | nil => exact fun _ => rfl
  | cons z zs ih =>
    exact fun k => (ih _).trans (endZoneSensor_heat z k)

theorem endZoneSensors_stays {c : Cond} (zs : List (Fin 4)) : ∀ k : Core, ¬condAt k.cond c = .active →
    ¬condAt (endZoneSensors zs k).cond c = .active := by
  induction zs with
  | nil => exact fun _ => id
  | cons z zs ih =>
    intro k h
    refine ih _ ?_
    unfold endZoneSensor
    split
    · exact endCond_stays _ h
    · exact h

theorem endZoneSensors_ends {z : Fin 4} :
    ∀ (zs : List (Fin 4)) (k : Core), z ∈ zs → (fourGet k.heat.zones z).fails = 0 →
    ¬condAt (endZoneSensors zs k).cond (.zoneSensor z) = .active := by
  intro zs
  induction zs with
  | nil => exact fun _ h => absurd h List.not_mem_nil
  | cons y zs ih =>
    intro k hz h0
    obtain rfl | hz := List.mem_cons.mp hz
    · refine endZoneSensors_stays zs _ ?_
      rw [endZoneSensor, if_pos h0]
      exact endCond_notActive _ _
    · exact ih _ hz (by rwa [endZoneSensor_heat])

theorem endSensorCauses_eq (k : Core) : endSensorCauses k =
    if k.heat.ambientFails = 0 then endCond .ambientSensor (endZoneSensors allFour k)
    else endZoneSensors allFour k := by
  rw [← endZoneSensors_heat allFour k]
  rfl

/-- Each sensor whose count of failed polls is 0 has no cause any more (R90). -/
theorem endSensorCauses_effect (k : Core) : (endSensorCauses k).heat = k.heat
    ∧ (∀ z : Fin 4, (fourGet k.heat.zones z).fails = 0 → ¬condAt (endSensorCauses k).cond (.zoneSensor z) = .active)
    ∧ (k.heat.ambientFails = 0 → ¬condAt (endSensorCauses k).cond .ambientSensor = .active) := by
  have hall : ∀ z : Fin 4, z ∈ allFour := by decide
  rw [endSensorCauses_eq]
  refine ⟨?_, fun z h => ?_, fun h => ?_⟩
  · split
    · rw [endCond_heat, endZoneSensors_heat]
    · exact endZoneSensors_heat ..
  · split
    · exact endCond_stays _ (endZoneSensors_ends _ _ (hall z) h)
    · exact endZoneSensors_ends _ _ (hall z) h
  · rw [if_pos h]
    exact endCond_notActive _ _

theorem pollHeater_zone (a : PollAnswers) (h : Heater) (z : Fin 4) : fourGet (pollHeater e a h).zones z =
    if fitted e z then pollZone (fourGet a.zone z) (fourGet h.zones z) else fourGet h.zones z := by
  simp only [pollHeater, fourGet_fourOf]

theorem exec_pollRound (a : PollAnswers) (hlive : Live s) : exec (.pollRound a) s =
    .next (settle (intervalOf s) { s with core := pollRound s.env a s.core }) := exec_live rfl hlive

/-- What a poll round leaves: the readings of the round, the causes it ends, the axes' motion. -/
theorem pollRound_effect (hruns : heaterRuns e = true) (a : PollAnswers) (k : Core) :
    ReadingsKept (pollHeater e a k.heat) (pollRound e a k).heat
      ∧ (∀ z : Fin 4, (fourGet (pollHeater e a k.heat).zones z).fails = 0 →
        ¬condAt (pollRound e a k).cond (.zoneSensor z) = .active)
      ∧ ((pollHeater e a k.heat).ambientFails = 0 → ¬condAt (pollRound e a k).cond .ambientSensor = .active)
      ∧ Unmoved k (pollRound e a k) := by
  obtain ⟨hheat, hzones, hambient⟩ := endSensorCauses_effect { k with heat := pollHeater e a k.heat }
  have haxes := endSensorCauses_axes { k with heat := pollHeater e a k.heat }
  have hdo : pollRound e a k = evaluateHeat e (endSensorCauses { k with heat := pollHeater e a k.heat }) := if_pos hruns
  rw [hdo]
  generalize endSensorCauses { k with heat := pollHeater e a k.heat } = u at hheat hzones hambient haxes
  have hsame : Same true u (evaluateHeat e u) := (Same.refl u).evaluateHeat
  refine ⟨?_, fun z h => ?_, fun h => ?_, ((Unmoved.refl k).ofAxes haxes).evaluateHeat⟩
  · have hread := evaluateHeat_readings e u
    rwa [hheat] at hread
  · rw [hsame.conds _ rfl]
    exact hzones z h
  · rw [hsame.conds _ rfl]
    exact hambient h

/-- Settles O53. -/
theorem pollRoundReadsSensors : Obligations.PollRoundReadsSensors := by
  intro a s hlive hruns failed
  obtain ⟨hread, hzones, hambient, hunmoved⟩ := pollRound_effect hruns a s.core
  refine ⟨_, exec_pollRound a hlive, ?_⟩
  rw [settle_heat, settle_cond, settle_axes]
  refine ⟨fun z hz => ⟨fun v hv hl hh => ?_, fun hf => ?_⟩, fun z hz => ?_, fun v hv hl hh => ?_, fun hf => ?_,
    hunmoved .az, hunmoved .el⟩
  · have hpoll : fourGet (pollHeater s.env a s.core.heat).zones z =
        { fourGet s.core.heat.zones z with reading := some v, fails := 0 } := by
      rw [pollHeater_zone, if_pos hz, pollZone, polled_some hv hl hh]
    exact ⟨(hread.reading z).trans (congrArg Zone.reading hpoll), (hread.fails z).trans (congrArg Zone.fails hpoll),
      hzones z (congrArg Zone.fails hpoll)⟩
  · have hpoll : fourGet (pollHeater s.env a s.core.heat).zones z =
        { fourGet s.core.heat.zones z with fails := min 3 ((fourGet s.core.heat.zones z).fails + 1) } := by
      rw [pollHeater_zone, if_pos hz, pollZone, polled_none hf]
      rfl
    rw [hread.reading, hread.fails, hpoll]
    exact ⟨rfl, rfl⟩
  · have hpoll : fourGet (pollHeater s.env a s.core.heat).zones z = fourGet s.core.heat.zones z := by
      rw [pollHeater_zone, hz]
      rfl
    exact ⟨(hread.reading z).trans (congrArg Zone.reading hpoll), (hread.fails z).trans (congrArg Zone.fails hpoll)⟩
  · have hreading : (pollHeater s.env a s.core.heat).ambient = some v := by simp only [pollHeater, polled_some hv hl hh]
    have hfails : (pollHeater s.env a s.core.heat).ambientFails = 0 := by simp only [pollHeater, polled_some hv hl hh]
    exact ⟨hread.ambient.trans hreading, hread.ambientFails.trans hfails, hambient hfails⟩
  · have hreading : (pollHeater s.env a s.core.heat).ambient = s.core.heat.ambient :=
        by simp only [pollHeater, polled_none hf]
    have hfails : (pollHeater s.env a s.core.heat).ambientFails = min 3 (s.core.heat.ambientFails + 1) := by
      simp only [pollHeater, polled_none hf]
      rfl
    exact ⟨hread.ambient.trans hreading, hread.ambientFails.trans hfails⟩

/-! ## A zone held off (R94, R95, R100) -/

/-- A zone without demand and output duty, its contactor off where it had a cycle duty. -/
structure ZoneOff (had : Prop) (z : Zone) : Prop where
  demand : z.demand = 0
  output : z.output = 0
  off : had → z.on = false

theorem applyAllowance_off {had : Prop} {z : Fin 4} (hd : (fourGet k.heat.zones z).demand = 0)
    (hc : had → 0 < (fourGet k.heat.zones z).cycle ∨ (fourGet k.heat.zones z).on = false) :
    ZoneOff had (fourGet (applyAllowance e k).heat.zones z) := by
  refine ⟨by rw [applyAllowance_demand, hd], ?_, fun h => ?_⟩
  · rw [applyAllowance_output, hd, Nat.zero_mul, Nat.zero_div, ite_self]
  · simp only [applyAllowance, fourGet_fourOf, hd, Nat.zero_mul, Nat.zero_div, ite_self]
    unfold lowerZone
    split
    · simp
    · rename_i hno
      exact (hc h).resolve_left hno

/-- An evaluation leaves a zone that is held off without demand, output duty and contactor (R94, R95, R99). -/
theorem evaluateHeat_off (hruns : heaterRuns e = true) {z : Fin 4} (h : heldOff k z = true) :
    ZoneOff (0 < (fourGet k.heat.zones z).cycle) (fourGet (evaluateHeat e k).heat.zones z) := by
  refine evaluateHeat_heat
    (P := fun h => (fourGet h.zones z).demand = 0 ∧ (0 < (fourGet k.heat.zones z).cycle →
      0 < (fourGet h.zones z).cycle ∨ (fourGet h.zones z).on = false))
    (Q := fun h => ZoneOff (0 < (fourGet k.heat.zones z).cycle) (fourGet h.zones z))
    (fun u hu => applyAllowance_off hu.1 hu.2) (fun u hu => ⟨hu.demand, fun hc => .inr (hu.off hc)⟩) hruns
      ⟨?_, fun hc => .inl ?_⟩
  · simp only [formDemands, fourGet_fourOf, zoneDemand, h, Bool.or_true, if_true]
  · simpa only [formDemands, fourGet_fourOf] using hc

/-- A condition raised before an evaluation is ACTIVE after it, but for those the account ends. -/
theorem evaluateHeat_raised (e : Env) {c : Cond} (hc : looseCond true c = false) (k : Core) :
    condAt (evaluateHeat e (raiseCond c k)).cond c = .active :=
  ((Same.refl (raiseCond c k)).evaluateHeat.conds c hc).trans (raiseCond_active c k)

theorem heldOff_raised {c : Cond} {z : Fin 4} (hc : c = .zoneSensor z ∨ c = .zoneFeedback z) (k : Core) :
    heldOff (raiseCond c k) z = true := by
  have hactive := raiseCond_active c k
  obtain rfl | rfl := hc <;> simp [heldOff, isRaised, hactive]

/-- A zone's fault holds the zone off (R90, R100). -/
theorem zoneHeldOff (hruns : heaterRuns e = true) {c : Cond} {z : Fin 4} (hc : c = .zoneSensor z ∨ c = .zoneFeedback z)
    (k : Core) : condAt (evaluateHeat e (raiseCond c k)).cond c = .active
      ∧ ZoneOff (0 < (fourGet k.heat.zones z).cycle) (fourGet (evaluateHeat e (raiseCond c k)).heat.zones z) := by
  refine ⟨evaluateHeat_raised e ?_ k, ?_⟩
  · obtain rfl | rfl := hc <;> rfl
  · have hoff := evaluateHeat_off hruns (heldOff_raised hc k)
    rwa [raiseCond_heat] at hoff

theorem heaterRuns_of_fitted {z : Fin 4} (h : fitted e z = true) : heaterRuns e = true := by
  unfold fitted at h
  exact (Bool.and_eq_true_iff.mp h).1

theorem exec_sensorFault (x : Sensor) (hlive : Live s) : exec (.sensorFault x) s =
    .next (settle (intervalOf s) { s with core := sensorFault s.env x s.core }) := exec_live rfl hlive

theorem exec_zoneFeedbackTimeout (z : Fin 4) (hlive : Live s) : exec (.zoneFeedbackTimeout z) s =
    .next (settle (intervalOf s) { s with core := zoneFault s.env z s.core }) := exec_live rfl hlive

/-- Without the ambient sensor the air counts as −10.0 °C (R90). -/
theorem airTemperature_fault (h : condAt k.cond .ambientSensor = .active) : airTemperature k = -100 := by
  simp [airTemperature, isActive, h, assumedFrost]

/-- Settles O54. -/
theorem heaterFaultsHoldZonesOff : Obligations.HeaterFaultsHoldZonesOff := by
  intro s hlive
  refine ⟨fun hf => ?_, fun z hz => ⟨fun hf => ?_, fun hm => ?_⟩⟩
  · have hdo : sensorFault s.env .ambient s.core = evaluateHeat s.env (raiseCond .ambientSensor s.core) := if_pos hf
    have hactive : condAt (sensorFault s.env .ambient s.core).cond .ambientSensor = .active :=
      hdo ▸ evaluateHeat_raised s.env rfl s.core
    refine ⟨_, exec_sensorFault .ambient hlive, ?_, ?_, ?_⟩
    · rw [settle_cond]; exact hactive
    · exact airTemperature_fault ((congrArg (condAt · .ambientSensor) (settle_cond ..)).trans hactive)
    · rw [settle_heat]
      show (sensorFault s.env .ambient s.core).heat.mode = _
      rw [hdo, (Same.refl (m := true) (raiseCond .ambientSensor s.core)).evaluateHeat.mode, raiseCond_heat]
  · have hdo : sensorFault s.env (.zone z) s.core = evaluateHeat s.env (raiseCond (.zoneSensor z) s.core) := if_pos hf
    obtain ⟨hactive, hoff⟩ := zoneHeldOff (heaterRuns_of_fitted hz) (.inl rfl) s.core
    refine ⟨_, exec_sensorFault (.zone z) hlive, ?_⟩
    rw [settle_cond, settle_heat, hdo]
    exact ⟨hactive, hoff.demand, hoff.output, hoff.off⟩
  · have hdo : zoneFault s.env z s.core = evaluateHeat s.env (raiseCond (.zoneFeedback z) s.core) := if_pos ⟨hz, hm⟩
    obtain ⟨hactive, hoff⟩ := zoneHeldOff (heaterRuns_of_fitted hz) (.inr rfl) s.core
    refine ⟨_, exec_zoneFeedbackTimeout z hlive, ?_⟩
    rw [settle_cond, settle_heat, hdo]
    exact ⟨hactive, hoff.demand, hoff.output, hoff.off⟩

/-! ## Wet input and cycles (R91, R97, R98) -/

theorem startCycle_fields (e : Env) (b : Bool) (z : Zone) :
    (startCycle e b z).untilFirst = none ∧ (startCycle e b z).phase = phaseAtStart e z
      ∧ (b = true → (startCycle e b z).cycle = z.output ∧ (startCycle e b z).on = decide (0 < onTime e z.output)) := by
  cases b
  · exact ⟨rfl, rfl, nofun⟩
  · exact ⟨rfl, rfl, fun _ => ⟨rfl, rfl⟩⟩

theorem putZone_zones (k : Core) (i : Fin 4) (z : Zone) :
    fourGet (putZone k i z).heat.zones i = z
      ∧ ∀ y, ¬y = i → fourGet (putZone k i z).heat.zones y = fourGet k.heat.zones y :=
  ⟨fourGet_fourSet .., fun _ hy => fourGet_fourSet_ne _ _ _ _ (Ne.symm hy)⟩

theorem exec_wetChange (hlive : Live s) : exec .wetChange s =
    .next (settle (intervalOf s) { s with core := takeWet s.env s.core }) := exec_live rfl hlive

theorem exec_wetMemoryExpiry (hlive : Live s) : exec .wetMemoryExpiry s =
    .next (settle (intervalOf s) { s with core := endWetMemory s.env s.core }) := exec_live rfl hlive

theorem exec_cycleStart (z : Fin 4) (hlive : Live s) : exec (.cycleStart z) s =
    .next (settle (intervalOf s) { s with core := cycleStart s.env z s.core }) := exec_live rfl hlive

theorem exec_onTimeEnd (z : Fin 4) (hlive : Live s) : exec (.onTimeEnd z) s =
    .next (settle (intervalOf s) { s with core := onTimeEnd s.env z s.core }) := exec_live rfl hlive

/-- Settles O55. -/
theorem heaterTimersAndCycles : Obligations.HeaterTimersAndCycles := by
  intro z s hlive hruns
  refine ⟨fun hheld hlevel => ?_, fun hx => ?_, ?_, fun hover => ?_⟩
  · have hready : wetReady s.env s.core = true := by simp [wetReady, hruns, wetFilterMs, hheld, hlevel]
    have hread := evaluateHeat_readings s.env { s.core with heat := { s.core.heat with
      wet := s.env.inputs.wetLevel
      memory := if s.env.inputs.wetLevel then none else if s.env.setup.secD.wetMemory = 0 then none else some 0 } }
    refine ⟨_, exec_wetChange hlive, ?_⟩
    rw [settle_heat, takeWet, if_pos hready]
    refine ⟨hread.wet, hread.memory.trans ?_⟩
    cases s.env.inputs.wetLevel <;> simp
  · have hread := evaluateHeat_readings s.env { s.core with heat := { s.core.heat with memory := none } }
    refine ⟨_, exec_wetMemoryExpiry hlive, ?_⟩
    rw [settle_heat, endWetMemory, if_pos hx]
    exact ⟨hread.memory, hread.wet⟩
  · obtain ⟨hown, hother⟩ := putZone_zones s.core z (startCycle s.env (fitted s.env z) (fourGet s.core.heat.zones z))
    obtain ⟨hfirst, hphase, hcycle⟩ := startCycle_fields s.env (fitted s.env z) (fourGet s.core.heat.zones z)
    refine ⟨_, exec_cycleStart z hlive, ?_⟩
    rw [settle_heat, cycleStart, if_pos hruns]
    simp only [hown]
    refine ⟨hfirst, fun hn => ?_, fun hn => ?_, hcycle, hother⟩
    · rw [hphase, phaseAtStart, hn]
      rfl
    · rw [hphase, phaseAtStart, if_pos (Option.isSome_iff_ne_none.mpr hn)]
  · obtain ⟨hown, hother⟩ := putZone_zones s.core z (endOnTime s.env (fourGet s.core.heat.zones z))
    refine ⟨_, exec_onTimeEnd z hlive, ?_⟩
    rw [settle_heat]
    refine ⟨hown.trans ?_, hother⟩
    rw [endOnTime, if_pos hover]

/-! ## The feedback proof's verdict (R179) -/

theorem syncCond_proof (c : Cond) (b : Bool) (k : Core) : (syncCond c b k).cond.proof = k.cond.proof := by
  have hraise : (raiseCond c k).cond.proof = k.cond.proof := by
    unfold raiseCond
    split
    · rfl
    · rw [wakeEvent_cond]
      split <;> rfl
  unfold syncCond
  split
  · exact hraise
  · exact endCond_proof ..

/-- Settles O56. -/
theorem feedbackVerdictFalls : Obligations.FeedbackVerdictFalls := by
  intro p s hlive hp hn
  have hdo : feedbackVerdict s.env s.core =
      syncCond .proofFeedback (proofFails s.env p) { s.core with cond := { s.core.cond with proof := none } } := by
    simp only [feedbackVerdict, hp]
    exact if_pos hn
  have hrun : exec .feedbackProofVerdict s =
      .next (settle (intervalOf s) { s with core := feedbackVerdict s.env s.core }) := exec_live rfl hlive
  rw [hdo] at hrun
  refine ⟨_, hrun, ?_⟩
  rw [settle_cond]
  refine ⟨?_, fun hf => ?_, fun hf => ?_, rfl, rfl⟩
  · exact syncCond_proof ..
  · show condAt (syncCond _ _ _).cond _ = _
    rw [hf, syncCond, if_pos rfl, raiseCond_active]
  · show condAt (syncCond _ _ _).cond _ = _
    rw [hf, syncCond, if_neg (by decide), endCond_own]
    rfl

end Sys2Proof.Machine
end

section
/-! PROOFS. Resets (R183), the start instant (R184), the configuration image's sections (R180 to R182), and completion (R185). -/

namespace Sys2Proof.Machine

variable {e : Env} {k k0 : Core} {s : State}

/-! ## Entry to reset (R183) -/

theorem storeLost_false {ms : Nat} {lost : Bool} (h : ms ≤ 200 ∨ (lost = false ∧ ms ≤ 200 + Config.holdUpSpread)) :
    storeLost ms lost = false := by
  unfold storeLost holdUpMs
  obtain h | ⟨rfl, h⟩ := h
  · rw [decide_eq_false (by omega), Bool.false_and]
  · rw [decide_eq_false (p := 200 + Config.holdUpSpread < ms) (by omega), Bool.or_false, Bool.and_false]

theorem storeLost_true {ms : Nat} {lost : Bool} (h : 200 + Config.holdUpSpread < ms ∨ (200 < ms ∧ lost = true)) :
    storeLost ms lost = true := by
  unfold storeLost holdUpMs
  obtain h | ⟨h, rfl⟩ := h
  · rw [decide_eq_true (p := 200 < ms) (by omega), decide_eq_true h, Bool.or_true, Bool.and_true]
  · rw [decide_eq_true h, Bool.true_or, Bool.and_true]

/-- Settles O57. -/
theorem resetMakesSafe : Obligations.ResetMakesSafe := by
  intro ms cuts ce lost s marker
  refine ⟨fun h => ?_, fun h => ?_, ?_⟩
  · have hno : assertReset ms cuts ce s = s := if_neg (by rw [resetMs]; omega)
    exact congrArg Host.Outcome.next hno
  · have hdo : assertReset ms cuts ce s = enterReset (cutWrites cuts ce s.store) s := if_pos h
    exact ⟨_, congrArg Host.Outcome.next hdo, rfl, rfl, rfl, rfl, rfl, rfl, rfl⟩
  · refine ⟨failSupply ms lost cuts ce s, rfl, rfl, rfl, ?_, ?_, fun h => ?_, fun h => ?_⟩
    · unfold failSupply
      split <;> rfl
    · unfold failSupply
      split <;> rfl
    · rw [failSupply, storeLost_false h]
      exact ⟨rfl, rfl, rfl⟩
    · rw [failSupply, storeLost_true h]
      rfl

/-! ## The start instant (R184) -/

theorem exec_startInstant (h : s.inReset = true) : exec .startInstant s = .next (drive (startInstant s)) := by
  show Host.Outcome.next (if s.inReset then drive (startInstant s) else s) = _
  rw [if_pos h]

/-- The list after a power-on: the cold record alone (R76). -/
def coldEnv : Env := { startEnv with list := [newLock .point .system] }

/-- The blocks after a power-on: the cold record's placing has requested a beacon. -/
def coldCore : Core := { startCore with line := { startLine with tx := .gap, pending := some .urgent } }

theorem handList_start : handList [] coldEnv startCore = coldCore := by decide +kernel

/-- The store after a power-on, the cold record's write begun (R78). -/
def coldStore : Store := takeChanges [newLock .point .system] [{ kind := .point, origin := .system }] emptyStore

theorem coldStore_valid : coldStore.valid = true := by decide +kernel

/-- A power-on leaves the start values, the cold record and its beacon request (R76, R78). -/
theorem powerOn_cold (s : State) :
    powerOn s = { emptied s with env := coldEnv, core := coldCore, store := coldStore } := by
  rw [powerOn_eq, ← handList_start]
  rfl

theorem condAt_start (c : Cond) : condAt startCond c = .clear := Vector.getElem_replicate ..

/-- Settles O58. -/
theorem startInstantDecides : Obligations.StartInstantDecides := by
  intro s hreset axis zone claim line heat none5
  refine ⟨_, exec_startInstant hreset, ?_⟩
  cases hgood : storeGood s.store with
  | true =>
    have hdo : startInstant s = warmStart s := if_pos hgood
    rw [hdo]
    exact ⟨rfl, rfl, rfl, rfl, rfl, rfl, rfl, rfl, rfl,
      condAt_start, rfl, rfl, rfl, rfl, rfl, rfl, rfl, rfl, rfl, rfl, rfl,
      rfl, fun _ => ⟨rfl, rfl, rfl, rfl⟩, nofun⟩
  | false =>
    have hdo : startInstant s = powerOn s := if_neg (by rw [hgood]; decide)
    rw [hdo, powerOn_cold]
    exact ⟨rfl, rfl, rfl, rfl, rfl, rfl, rfl, rfl, rfl,
      condAt_start, rfl, rfl, rfl, rfl, rfl, rfl, rfl, rfl, rfl, rfl, rfl,
      rfl, nofun, fun _ => ⟨rfl, rfl, rfl, rfl, coldStore_valid⟩⟩

/-! ## What a change of the list hands on leaves of the blocks (R70) -/

theorem Same.handList (old : List Lock) (h : Same false k0 k) : Same false k0 (handList old e k) := by
  have ite {b : Prop} [Decidable b] {x y : Core} (hx : Same false k0 x) (hy : Same false k0 y) :
      Same false k0 (if b then x else y) := by split <;> assumption
  have h1 : Same false k0 (if arrives isBlocking old e.list then Machine.stopForLockout e k else k) :=
      ite h.stopForLockout h
  unfold Machine.handList
  generalize (if arrives isBlocking old e.list then Machine.stopForLockout e k else k) = k1 at h1
  have h2 : Same false k0
      (if arrives isPointLock old e.list ∧ k1.stow.state = .clear then Machine.holdForLockout e k1 else k1) :=
    ite h1.holdForLockout h1
  simp only []
  generalize (if arrives isPointLock old e.list ∧ k1.stow.state = .clear then Machine.holdForLockout e k1 else k1) =
    k2 at h2 ⊢
  have h3 : Same false k0 (if blocking e.list then Machine.blockStow k2 else Machine.unblockStow e k2) :=
    ite h2.blockStow h2.unblockStow
  generalize (if blocking e.list then Machine.blockStow k2 else Machine.unblockStow e k2) = k3 at h3 ⊢
  have h4 : Same false k0 (Machine.evaluateHeat e (Machine.wakeEvent k3)) := h3.wakeEvent.evaluateHeat
  exact (ite h4 (h4.request .urgent)).tryReleases

theorem changeList_same (new : List Lock) (ms : List Mark) (s : State) :
    Same false s.core (changeList new ms s).core := by
  unfold changeList
  split
  · exact .refl _
  · exact (Same.refl s.core).handList (e := { s.env with list := new }) _

theorem setOwned_same (l : LockKind) (o : Origin) (s : State) :
    Same false s.core (setOwned l o s).core := changeList_same ..

/-! ## The system record (R77, R84) -/

theorem systemAll_putOwned (ls : List Lock) : systemAll (putOwned .all .system ls) = true := by
  cases hf : findIdent (identOf .all .system) ls with
  | none =>
    rw [putOwned_absent hf]
    simp [systemAll, newLock]
  | some r =>
    by_cases hk : r.kind = .all
    · obtain ⟨hid, hmem⟩ : lockIdent r = .system ∧ r ∈ ls := by
        have hident := List.find?_some hf
        exact ⟨of_decide_eq_true hident, List.mem_of_find?_eq_some hf⟩
      rw [putOwned_sameKind hf hk, systemAll, List.any_eq_true]
      refine ⟨settleLock r, List.mem_map.mpr ⟨r, hmem, if_pos hid⟩, ?_⟩
      have horigin : (settleLock r).origin = .system := (lockIdent_system_iff r).mp hid
      have hkind : (settleLock r).kind = .all := hk
      rw [horigin, hkind]
      rfl
    · rw [putOwned_otherKind hf hk]
      simp [systemAll, newLock]

theorem findIdent_system (ls : List Lock) : findIdent .system ls = systemRecord ls := by
  simp only [findIdent, systemRecord, lockIdent_system_iff]

/-- A system record held becomes the cold record, HELD (R77, R84). -/
theorem systemRecord_putOwned {ls : List Lock} {r : Lock} (h : systemRecord ls = some r) :
    ∃ r', systemRecord (putOwned .point .system ls) = some r' ∧ r'.kind = .point ∧ r'.uncertain = false := by
  have hf : findIdent (identOf .point .system) ls = some r := (findIdent_system ls).trans h
  by_cases hk : r.kind = .point
  · refine ⟨settleLock r, ?_, hk, rfl⟩
    have hid : lockIdent r = .system := (lockIdent_system_iff r).mpr
      (of_decide_eq_true (List.find?_some (p := fun l : Lock => decide (l.origin = Origin.system)) h))
    have hsame : ((fun l : Lock => decide (l.origin = .system)) ∘
        fun l => if lockIdent l = .system then settleLock l else l) =
        fun l => decide (l.origin = .system) := by
      funext l
      simp only [Function.comp_apply]
      split <;> rfl
    have hident : identOf .point .system = .system := rfl
    rw [putOwned_sameKind hf hk, hident, systemRecord, settleIdent, List.find?_map, hsame]
    have hfind : ls.find? (fun l => decide (l.origin = .system)) = some r := h
    rw [hfind]
    exact congrArg some (if_pos hid)
  · refine ⟨newLock .point .system, ?_, rfl, rfl⟩
    have hnone : (dropIdent .system ls).find? (fun l => decide (l.origin = .system)) = none := by
      rw [List.find?_eq_none]
      intro l hl
      have hno := (List.mem_filter.mp hl).2
      simpa [lockIdent_system_iff] using hno
    rw [putOwned_otherKind hf hk, systemRecord, List.find?_append]
    show ((dropIdent .system ls).find? _).or _ = _
    rw [hnone]
    rfl

/-! ## Sections (R180 to R182) -/

theorem exec_sectionLoaded {l : List Byte} {x : SectionId} (hlive : Live s) (hx : s.env.setup.loading = some x) :
    exec (.sectionLoaded l) s = .next (settle (intervalOf s)
      (loadOf l x (withSetup { s.env.setup with loading := nextSection x } s))) := by
  rw [exec_live rfl hlive, workOf, loadSection_some hx]

/-- What a failed section gives: its condition and the record (ALL, SYSTEM); a SILENT transmitter stays so (R77, R180).
-/
theorem failSection_effect (x : SectionId) (s : State) :
    condAt (failSection x s).core.cond (.sectionFailed x) = .active ∧ systemAll (failSection x s).env.list = true
      ∧ (s.core.line.tx = .silent → (failSection x s).core.line.tx = .silent) := by
  have hsame : Same false (raiseCond (.sectionFailed x) s.core) (failSection x s).core :=
    setOwned_same .all .system { s with core := raiseCond (.sectionFailed x) s.core }
  refine ⟨?_, ?_, fun hs => ?_⟩
  · exact (hsame.conds (.sectionFailed x) rfl).trans (raiseCond_active ..)
  · rw [failSection, setOwned_list]
    exact systemAll_putOwned _
  · have hline := (raiseCond_line (.sectionFailed x) s.core).trans hsame.line
    exact (hline.silent (by rw [hs]; decide)).trans hs

/-- The masks settled: nothing of the conditions changes with them (R169, R173). -/
theorem settleMasks_fields (m : BitVec 36) (a : BitVec 6) (k : Core) :
    (settleMasks m a k).cond.masks = m ∧ (settleMasks m a k).cond.alarmMask = a
      ∧ (∀ c, condAt (settleMasks m a k).cond c = condAt k.cond c) := by
  have hnotice (k' : Core) (c : Cls) :
      (setNotice c k').cond.masks = k'.cond.masks ∧ (setNotice c k').cond.alarmMask = k'.cond.alarmMask
        ∧ (setNotice c k').cond.states = k'.cond.states := ⟨rfl, rfl, rfl⟩
  have hfold := foldl_keeps (fun k' : Core => k'.cond.masks = m ∧ k'.cond.alarmMask = a
      ∧ k'.cond.states = k.cond.states)
    (fun k' cl => if classActive k'.cond cl then setNotice cl k' else k') allClasses (fun k' c hk => by
      obtain ⟨hm, ha, hs⟩ := hk
      split
      · obtain ⟨nm, na, ns⟩ := hnotice k' c
        exact ⟨nm.trans hm, na.trans ha, ns.trans hs⟩
      · exact ⟨hm, ha, hs⟩)
    { k with cond := { k.cond with masks := m, alarmMask := a, settled := true, summary := summaryOf k.cond.states m } }
    ⟨rfl, rfl, rfl⟩
  have hdo : settleMasks m a k = allClasses.foldl (fun k' cl => if classActive k'.cond cl then setNotice cl k' else k')
    { k with
      cond := { k.cond with masks := m, alarmMask := a, settled := true, summary := summaryOf k.cond.states m } } := rfl
  rw [← hdo] at hfold
  obtain ⟨hm, ha, hs⟩ := hfold
  exact ⟨hm, ha, fun c => by rw [condAt, condAt, hs]⟩

/-- Section A at the loader (R180, R181). -/
theorem loadA_cases (l : List Byte) (s : State) :
    (∀ a, parseA l = some a → (loadA l s).env.setup.secA = some a ∧ (loadA l s).env.setup.statusA = .installed)
      ∧ (parseA l = none → (loadA l s).env.setup.statusA = .failed ∧ (loadA l s).core.line.tx = .silent
        ∧ condAt (loadA l s).core.cond (.sectionFailed .a) = .active ∧ systemAll (loadA l s).env.list = true) := by
  refine ⟨fun a h => ?_, fun h => ?_⟩
  · simp only [loadA, h]
    exact ⟨rfl, rfl⟩
  · simp only [loadA, h]
    obtain ⟨hcond, hlist, hsilent⟩ := failSection_effect .a
      { withSetup { s.env.setup with statusA := .failed } s with
        core := silenceIdentity (withSetup { s.env.setup with statusA := .failed } s).core }
    rw [failSection_setup]
    exact ⟨rfl, hsilent rfl, hcond, hlist⟩

/-- Section B at the loader (R180, R182). -/
theorem loadB_cases (l : List Byte) (s : State) :
    (∀ b, parseB l = some b → (loadB l s).env.setup.secB = b ∧ (loadB l s).env.setup.statusB = .installed)
      ∧ (parseB l = none → (loadB l s).env.setup.statusB = .failed ∧ (loadB l s).env.setup.secB = s.env.setup.secB
        ∧ condAt (loadB l s).core.cond (.sectionFailed .b) = .active ∧ systemAll (loadB l s).env.list = true) := by
  refine ⟨fun b h => ?_, fun h => ?_⟩
  · simp only [loadB, h]
    exact ⟨rfl, rfl⟩
  · simp only [loadB, h]
    obtain ⟨hcond, hlist, -⟩ := failSection_effect .b (withSetup { s.env.setup with statusB := .failed } s)
    rw [failSection_setup]
    exact ⟨rfl, rfl, hcond, hlist⟩

/-- Section C at the loader; either way the first wind bin begins (R28, R180, R182). -/
theorem loadC_cases (l : List Byte) (s : State) :
    (loadC l s).env.wind.binClock = some 0
      ∧ (∀ c, parseC l = some c → (loadC l s).env.setup.secC = c ∧ (loadC l s).env.setup.statusC = .installed)
      ∧ (parseC l = none → (loadC l s).env.setup.statusC = .failed ∧ (loadC l s).env.setup.secC = s.env.setup.secC
        ∧ condAt (loadC l s).core.cond (.sectionFailed .c) = .active ∧ systemAll (loadC l s).env.list = true) := by
  refine ⟨?_, fun c h => ?_, fun h => ?_⟩
  · unfold loadC
    split <;> rfl
  · simp only [loadC, h]
    exact ⟨rfl, rfl⟩
  · simp only [loadC, h]
    obtain ⟨hcond, hlist, -⟩ := failSection_effect .c (withSetup { s.env.setup with statusC := .failed } s)
    rw [beginBins_setup, failSection_setup]
    exact ⟨rfl, rfl, hcond, hlist⟩

/-- With every section good a system record becomes the cold record, and nothing else is done (R77, R84). -/
theorem restoreCold_cases (s : State) : Same false s.core (restoreCold s).core
    ∧ (allInstalled s.env.setup = true → (systemRecord s.env.list).isSome = true →
      ∃ r, systemRecord (restoreCold s).env.list = some r ∧ r.kind = .point ∧ r.uncertain = false)
    ∧ (¬allInstalled s.env.setup = true ∨ systemRecord s.env.list = none → (restoreCold s).env.list = s.env.list) := by
  by_cases hc : allInstalled s.env.setup = true ∧ (systemRecord s.env.list).isSome = true
  · have hdo : restoreCold s = setOwned .point .system s := if_pos hc
    rw [hdo]
    refine ⟨setOwned_same .., fun _ hsome => ?_, fun hno => ?_⟩
    · obtain ⟨r, hr⟩ := Option.isSome_iff_exists.mp hsome
      rw [setOwned_list]
      exact systemRecord_putOwned hr
    · obtain ⟨hall, hsome⟩ := hc
      obtain h | h := hno
      · exact absurd hall h
      · rw [h] at hsome
        exact Bool.noConfusion hsome
  · have hdo : restoreCold s = s := if_neg hc
    rw [hdo]
    exact ⟨.refl _, fun hall hsome => absurd ⟨hall, hsome⟩ hc, fun _ => rfl⟩

/-- The station with section D installed, its masks settled and the heater cycles begun (R97, R102, R169). -/
def installedD (d : SecD) (s : State) : State :=
  let s1 := withSetup { s.env.setup with secD := d, statusD := .installed } s
  let k := settleMasks d.masks d.alarm s1.core
  { s1 with core := { k with heat := beginCycles s1.env k.heat } }

theorem installedD_cond (d : SecD) (s : State) :
    (installedD d s).core.cond = (settleMasks d.masks d.alarm s.core).cond := by
  simp only [installedD, withSetup]

/-- Section D installed: the masks are settled and a system record restored (R97, R102, R169). -/
theorem loadD_installed {l : List Byte} {d : SecD} (h : parseD l = some d) (s : State) :
    ((loadD l s).env.setup.secD = d ∧ (loadD l s).env.setup.statusD = .installed)
      ∧ ((loadD l s).core.cond.masks = d.masks ∧ (loadD l s).core.cond.alarmMask = d.alarm)
      ∧ (s.env.setup.statusA = .installed ∧ s.env.setup.statusB = .installed ∧ s.env.setup.statusC = .installed →
        (systemRecord s.env.list).isSome = true →
        ∃ r, systemRecord (loadD l s).env.list = some r ∧ r.kind = .point ∧ r.uncertain = false)
      ∧ (¬(s.env.setup.statusA = .installed ∧ s.env.setup.statusB = .installed ∧ s.env.setup.statusC = .installed)
          ∨ systemRecord s.env.list = none → (loadD l s).env.list = s.env.list) := by
  obtain ⟨hmasks, halarm, -⟩ := settleMasks_fields d.masks d.alarm s.core
  have hall : allInstalled { s.env.setup with secD := d, statusD := .installed } = true ↔
      s.env.setup.statusA = .installed ∧ s.env.setup.statusB = .installed ∧ s.env.setup.statusC = .installed := by
    simp [allInstalled, and_assoc]
  have hdo : loadD l s = restoreCold (installedD d s) := by
    simp only [loadD, h]
    rfl
  obtain ⟨hsame, hcold, hleft⟩ := restoreCold_cases (installedD d s)
  rw [hdo]
  rw [← installedD_cond] at hmasks halarm
  refine ⟨?_, ⟨hsame.masks.trans hmasks, hsame.alarm.trans halarm⟩, fun hi => hcold (hall.mpr hi), fun hi => hleft ?_⟩
  · rw [restoreCold_setup]
    exact ⟨rfl, rfl⟩
  · exact hi.imp (mt hall.mp) id

theorem loadD_failed {l : List Byte} (h : parseD l = none) (s : State) :
    (loadD l s).env.setup.statusD = .failed ∧ (loadD l s).core.cond.masks = 0
      ∧ condAt (loadD l s).core.cond (.sectionFailed .d) = .active ∧ systemAll (loadD l s).env.list = true := by
  obtain ⟨hcond, hlist, -⟩ := failSection_effect .d (withSetup { s.env.setup with statusD := .failed } s)
  have hsetup := failSection_setup .d (withSetup { s.env.setup with statusD := .failed } s)
  simp only [loadD, h]
  generalize failSection .d (withSetup { s.env.setup with statusD := .failed } s) = u at hcond hlist hsetup
  obtain ⟨hmasks, -, hconds⟩ := settleMasks_fields 0 defaultAlarmMask u.core
  exact ⟨congrArg Setup.statusD hsetup, hmasks, (hconds _).trans hcond, hlist⟩

theorem settle_silent (old : Nat) {u : State} (h : u.core.line.tx = .silent) : (settle old u).core.line.tx = .silent :=
  ((settle_line old u).silent (by rw [h]; decide)).trans h

/-- Settles O59. -/
theorem sectionIsInstalledOrFails : Obligations.SectionIsInstalledOrFails := by
  intro l s hlive
  refine ⟨fun hx => ?_, fun hx => ?_, fun hx => ?_, fun hx => ?_⟩
  · obtain ⟨hgood, hbad⟩ := loadA_cases l (withSetup { s.env.setup with loading := some .b } s)
    have hnext := (loadOf_setup l .a (withSetup { s.env.setup with loading := some .b } s)).2
    refine ⟨_, exec_sectionLoaded hlive hx, ?_⟩
    rw [settle_env, settle_cond]
    refine ⟨hnext, hgood, fun h => ?_⟩
    obtain ⟨hstatus, hsilent, hcond, hlist⟩ := hbad h
    refine ⟨hstatus, ?_, hcond, hlist⟩
    exact settle_silent _ hsilent
  · obtain ⟨hgood, hbad⟩ := loadB_cases l (withSetup { s.env.setup with loading := some .c } s)
    have hnext := (loadOf_setup l .b (withSetup { s.env.setup with loading := some .c } s)).2
    refine ⟨_, exec_sectionLoaded hlive hx, ?_⟩
    rw [settle_env, settle_cond]
    exact ⟨hnext, hgood, hbad⟩
  · obtain ⟨hbins, hgood, hbad⟩ := loadC_cases l (withSetup { s.env.setup with loading := some .d } s)
    have hnext := (loadOf_setup l .c (withSetup { s.env.setup with loading := some .d } s)).2
    refine ⟨_, exec_sectionLoaded hlive hx, ?_⟩
    rw [settle_env, settle_cond]
    exact ⟨hnext, hbins, hgood, hbad⟩
  · have hnext := (loadOf_setup l .d (withSetup { s.env.setup with loading := none } s)).2
    refine ⟨_, exec_sectionLoaded hlive hx, ?_⟩
    rw [settle_env, settle_cond]
    refine ⟨hnext, fun d h => ?_, fun h => loadD_failed h _⟩
    obtain ⟨⟨hsec, hstatus⟩, ⟨hmasks, halarm⟩, hcold, hleft⟩ :=
      loadD_installed h (withSetup { s.env.setup with loading := none } s)
    exact ⟨hsec, hstatus, hmasks, halarm, fun ha hb hc => hcold ⟨ha, hb, hc⟩, hleft⟩

/-! ## Completion (R185) -/

theorem syncStowFailed_fault (k : Core) : someFault (syncStowFailed k) = someFault k := by
  have hmotion := (syncStowFailed_same k).axis
  have haz : (syncStowFailed k).axes.az.state = k.axes.az.state := motion_state (hmotion .az)
  have hel : (syncStowFailed k).axes.el.state = k.axes.el.state := motion_state (hmotion .el)
  rw [someFault, someFault, haz, hel]

theorem raiseCond_fault (c : Cond) (k : Core) : someFault (raiseCond c k) = someFault k := by
  have haz : (raiseCond c k).axes.az.state = k.axes.az.state := motion_state (raiseCond_motion c k .az)
  have hel : (raiseCond c k).axes.el.state = k.axes.el.state := motion_state (raiseCond_motion c k .el)
  rw [someFault, someFault, haz, hel]

/-- The stow state derived with its condition; causes, axes' faults and the line stand (R47). -/
theorem deriveStow_effect (e : Env) (k : Core) :
    (deriveStow e k).stow.state = derivedStow e k ∧ (deriveStow e k).stow.causes = k.stow.causes
      ∧ someFault (deriveStow e k) = someFault k
      ∧ (derivedStow e k = .failed → condAt (deriveStow e k).cond .pinFeedback = .active) := by
  by_cases hf : derivedStow e k = .failed
  · have hdo : deriveStow e k =
        syncStowFailed (raiseCond .pinFeedback { k with stow := { k.stow with state := derivedStow e k } }) := by
      simp only [deriveStow]
      rw [if_pos hf]
    rw [hdo]
    refine ⟨?_, ?_, ?_, fun _ => ?_⟩
    · rw [syncStowFailed_state, raiseCond_state]
    · rw [(syncStowFailed_same _).causes, raiseCond_causes]
    · rw [syncStowFailed_fault, raiseCond_fault]
      rfl
    · exact ((syncStowFailed_same _).conds .pinFeedback rfl).trans (raiseCond_active ..)
  · have hdo : deriveStow e k = syncStowFailed { k with stow := { k.stow with state := derivedStow e k } } := by
      simp only [deriveStow]
      rw [if_neg hf]
    rw [hdo]
    refine ⟨?_, ?_, ?_, fun h => absurd h hf⟩
    · rw [syncStowFailed_state]
    · rw [(syncStowFailed_same _).causes]
    · rw [syncStowFailed_fault]
      rfl

/-- The blocks at completion before the way on from a derived CLEAR (R185). -/
def completedCore (e : Env) (k : Core) : Core := startIsolation e (request .normal (deriveStow e k))

theorem completedCore_parts (e : Env) (k : Core) :
    (completedCore e k).stow = (deriveStow e k).stow ∧ (completedCore e k).cond = (deriveStow e k).cond
      ∧ (completedCore e k).axes = (deriveStow e k).axes ∧ (completedCore e k).line.pending.isSome = true
      ∧ (receiving e = true → (completedCore e k).line.isolationTimer = some 0) := by
  unfold completedCore startIsolation
  split
  · exact ⟨rfl, rfl, rfl, rfl, fun _ => rfl⟩
  · rename_i hno
    exact ⟨rfl, rfl, rfl, rfl, fun h => absurd h hno⟩

/-- What completion leaves: the derived state, or for a derived CLEAR with a cause the demand (R51, R185). -/
def afterDerivation (e : Env) (k : Core) : Core :=
  if k.stow.state = .clear ∧ ¬k.stow.causes = noCauses then demandStow e k else k

theorem afterDerivation_same (e : Env) (k : Core) : Same false k (afterDerivation e k) := by
  unfold afterDerivation
  split
  · exact (Same.refl k).demandStow
  · exact .refl k

theorem exec_configurationComplete (hlive : Live s) (hm : mayComplete s.env = true) :
    exec .configurationComplete s = .next (settle (intervalOf s)
      { s with
        env := { s.env with setup := { s.env.setup with configured := true } }
        core := afterDerivation { s.env with setup := { s.env.setup with configured := true } }
          (completedCore { s.env with setup := { s.env.setup with configured := true } } s.core) }) := by
  rw [exec_live rfl hlive]
  have hwork : workOf .configurationComplete s = completeConfiguration s := rfl
  rw [hwork, completeConfiguration, if_pos hm]
  rfl

/-- Settles O60. -/
theorem configurationCompletes : Obligations.ConfigurationCompletes := by
  intro s hlive hm
  let e := { s.env with setup := { s.env.setup with configured := true } }
  have hrun : exec .configurationComplete s = .next (settle (intervalOf s)
      { s with env := e, core := afterDerivation e (completedCore e s.core) }) := exec_configurationComplete hlive hm
  obtain ⟨hstate, hcauses, hfault, hfailed⟩ := deriveStow_effect e s.core
  obtain ⟨hstow, hcond, haxes, hpending, hisolation⟩ := completedCore_parts e s.core
  have hsame := afterDerivation_same e (completedCore e s.core)
  have hline := settle_line (intervalOf s) { s with env := e, core := afterDerivation e (completedCore e s.core) }
  have hcause : (completedCore e s.core).stow.causes = s.core.stow.causes := by rw [hstow, hcauses]
  have hderived : (completedCore e s.core).stow.state = derivedStow s.env s.core := by rw [hstow]; exact hstate
  have hfaults : someFault (completedCore e s.core) = someFault s.core := by
    rw [← hfault]
    unfold someFault
    rw [haxes]
  refine ⟨_, hrun, rfl, hline.pending (hsame.line.pending hpending),
    fun hr => hline.isolation.trans (hsame.line.isolation.trans (hisolation hr)), ?_, fun h => ?_, fun hc hd => ?_,
      fun hd => ?_, ?_⟩
  · rw [settle_stow]
    exact hsame.causes.trans hcause
  · have hstays : afterDerivation e (completedCore e s.core) = completedCore e s.core := by
      refine if_neg fun ⟨hd, hn⟩ => ?_
      rw [hderived] at hd
      rw [hcause] at hn
      exact h.elim hn (absurd hd)
    rw [settle_stow, hstays]
    exact hderived
  · have hgoes : afterDerivation e (completedCore e s.core) = demandStow e (completedCore e s.core) :=
      if_pos ⟨hderived.trans hd, by rwa [hcause]⟩
    obtain ⟨hblocked, hfail, hway⟩ := demandStow_state e (completedCore e s.core)
    rw [settle_stow, hgoes]
    exact ⟨hblocked, fun hb hf => hfail hb (hfaults.trans hf), fun hb hf => hway hb (hfaults.trans hf)⟩
  · rw [settle_cond]
    refine (hsame.conds .pinFeedback rfl).trans ?_
    rw [hcond]
    exact hfailed hd
  · rw [settle_cond, settle_outputs]
    show alarmLevel (settle _ _).core.cond = _
    rw [settle_cond]

end Sys2Proof.Machine
end

section
/-! PROOFS. Against the control interval as it is stated: a PARKED station that still holds an ACTIVE claim is woken within the interval's own sampling. -/

namespace Sys2Proof.Machine

/-! The sampling ends the cause of a zone's feedback condition and evaluates the heater (R95, R170), the evaluation
changes the heater demand and computes the account (R148), the computation raises OVERLOAD on the ACTIVE claim (R156),
and the raised condition is a wake event (R66). The encoders then have power, and their reads of the same interval
change the reading of an axis of a station that was PARKED as the interval began. The statement ranges over every live
station; that this one is reached from the start is not claimed. -/

/-- A PARKED station with sections C and D installed, its claim ACTIVE above the budget, its heater demand to be
announced anew, and zone 1 with a contactor feedback condition that its next sample ends. -/
def parkedOverBudget : State :=
  { State.reset with
    inReset := false
    env := { startEnv with
      setup := { startSetup with statusC := .installed, statusD := .installed, loading := none, encodersRead := true } }
    core := { startCore with
      stow := { startStow with state := .stowed, park := .parked }
      fee := { startFeeder with
        ownDemand := 1, claim := { noClaim with kind := .slew, state := .active, amount := 65535 } }
      cond := setCond (.zoneFeedback 0) .active startCond } }

/-- An axis's field lines with nothing active and its encoder at 1 degree. -/
def steadyAxis : AxisSample :=
  { encoder := .angle 1000000, lowLimit := false, highLimit := false, brakeReleased := false, enableReadback := false }

/-- Field lines with nothing active, no contactor closed. -/
def steadySamples : Samples :=
  { az := steadyAxis, el := steadyAxis, ampFault := false, pinEngaged := false, pinRetracted := false,
    zoneClosed := ⟨false, false, false, false⟩, wet := false, keyHigh := ⟨false, false, false, false⟩, stuck := 0 }

/-- The azimuth reading that a command leaves. -/
def azReadingAfter (i : Instr) (s : State) : Option Int :=
  match exec i s with
  | .next t => t.core.axes.az.reading
  | _ => none

/-- The interval wakes the station and reads its encoders. -/
theorem parkedOverBudget_reads : azReadingAfter (.controlInterval steadySamples) parkedOverBudget = some 1000000 := by
  decide +kernel

/-- What the statement would give for a PARKED station: its azimuth reading stands. -/
theorem parkedReading_of_controlIntervalSamples (h : Obligations.ControlIntervalSamples) (x : Samples) {s : State}
    (hlive : Live s)
    (hpark : s.core.stow.park = .parked) : azReadingAfter (.controlInterval x) s = s.core.axes.az.reading := by
  obtain ⟨t, ht, -, -, -, -, -, -, -, -, -, -, -, -, -, -, -, -, -, -, -, -, hparked, -⟩ := h x s hlive
  obtain ⟨-, -, -, -, hreading⟩ := hparked hpark .az
  rw [azReadingAfter, ht]
  exact hreading

/-- Refutes O40: a PARKED station with an ACTIVE claim above the budget wakes in the sampling, and the interval reads
its encoders, so that its axes do not stay where they were. -/
theorem not_controlIntervalSamples : ¬Obligations.ControlIntervalSamples := by
  intro h
  have hstands := parkedReading_of_controlIntervalSamples h steadySamples (s := parkedOverBudget) rfl rfl
  rw [parkedOverBudget_reads] at hstands
  exact absurd hstands (by decide)

end Sys2Proof.Machine
end
